-- ==== Sys2Proof/Word.lean ====
section
/-! DEFINITION. The word types of the block's ports and registers (30_encoding.md R50, R55, R60; 00_scope.md R10). -/

namespace Sys2Proof

/-- A 32-bit word read as an IEEE 754 binary32 value (00_scope.md R10). -/
abbrev F32 := BitVec 32

/-- The 4-bit step input word, SIW4 (30_encoding.md R50). -/
abbrev Siw := BitVec 4

/-- The 48-bit command output word, CMD48 (30_encoding.md R55). -/
abbrev CmdWord := BitVec 48

end Sys2Proof
end

