-- ==== Sys2Proof/Syntax.lean ====
section
/-! DEFINITION. The operations of the block: one constructor of `Instr` per row of opcode_table.json, the words that carry
them, and the lines of the trace syntax. -/

namespace Sys2Proof

/-- The three debounce instances (00_scope.md R14; 30_encoding.md R60, field INST). -/
inductive DbcInst where
  | p
  | a
  | b
deriving DecidableEq, Repr

/-- The five sources of the command output multiplexer (42_command_mux.md R110). -/
inductive Source where
  /-- `SRC_TDL`, toggle, local duty. -/
  | tdl
  /-- `SRC_TDB`, toggle, bus duty. -/
  | tdb
  /-- `SRC_CUR`, aux A current. -/
  | cur
  /-- `SRC_BRK`, aux B brake current. -/
  | brk
  /-- `SRC_NTL`, neutral. -/
  | ntl
deriving DecidableEq, Repr

/-- The two wait lengths of `MUX_WAIT` (42_command_mux.md R118). -/
inductive WaitSel where
  | settle
  | period
deriving DecidableEq, Repr

/-- The operations of 30_encoding.md R60 and the command words of 30_encoding.md R56. -/
inductive Instr where
  /-- `STEP`, with its SIW. -/
  | step (siw : Siw)
  | reset
  | dbcUpdateP
  | dbcUpdateA
  | dbcUpdateB
  | dbcCmpP
  | dbcCmpA
  | dbcCmpB
  | dbcClearP
  | dbcClearA
  | dbcClearB
  | seqToggle
  | seqDriveDuty
  | seqArm
  | seqTick
  | seqNeutral
  | muxEmit (src : Source)
  | muxWait (sel : WaitSel)
  | cmdNone
  /-- KIND 0x1; TARGET is 0 in every such word. -/
  | cmdLocalDuty (value : F32)
  | cmdBusDuty (target : BitVec 8) (value : F32)
  | cmdBusCurrent (target : BitVec 8) (value : F32)
  | cmdBusCurrentBrake (target : BitVec 8) (value : F32)
deriving DecidableEq, Repr

/-- A word as it is presented to the block. `uop`: the UOP7 word in bits [6:0], and, for the three operations that have an
operand of their own, the operand in bits [11:8]; the other bits are 0 (log 1, log 11). `cmd`: a CMD48 word. -/
inductive RawWord where
  | uop (bits : BitVec 16)
  | cmd (bits : CmdWord)
deriving DecidableEq, Repr

/-- Why a word names no operation. -/
inductive Reject where
  /-- A UOP7 word with OPID 0x0C to 0x1F (30_encoding.md R60). -/
  | reservedOpid (opid : BitVec 5)
  /-- INST 0b11 of a DBC operation (30_encoding.md R60). -/
  | reservedInst
  /-- INST not 0b00 outside the DBC operations (30_encoding.md R60). -/
  | instOutsideDbc (inst : BitVec 2)
  /-- A bit of the 16-bit carrier outside UOP7 and operand is 1 (log 1). -/
  | carrierBits
  /-- An operand on an operation that has none (log 11). -/
  | operandUnused (x : BitVec 4)
  /-- A `MUX_EMIT` operand that is none of the five sources (log 11). -/
  | reservedSource (x : BitVec 4)
  /-- A `MUX_WAIT` operand that is neither wait length (log 11). -/
  | reservedWait (x : BitVec 4)
  /-- KIND 0x5 to 0xF (30_encoding.md R56, R59). -/
  | reservedKind (kind : BitVec 4)
  /-- RSVD not 0 (30_encoding.md R59). -/
  | rsvdNotZero (rsvd : BitVec 4)
  /-- TARGET not 0 in a LOCAL_DUTY word (30_encoding.md R59). -/
  | localTarget (target : BitVec 8)
  /-- KIND NONE with a TARGET or VALUE that is not 0 (30_encoding.md R56). -/
  | noneFields
deriving DecidableEq, Repr

/-- A line of the trace syntax (30_encoding.md R62, R63). -/
inductive TraceLine where
  | reset
  | step (siw : Siw)
  | idle (n : Nat)
  | hold (siw : Siw) (n : Nat)
  | flap
deriving DecidableEq, Repr

end Sys2Proof
end

