-- ==== Sys2Proof/Decode.lean ====
section
/-! DEFINITION. From words to operations and back (30_encoding.md R55 to R60). -/

namespace Sys2Proof

/-! ### CMD48 fields (30_encoding.md R55) -/

/-- KIND, bits [47:44]. -/
def cmdKind (w : CmdWord) : BitVec 4 := w.extractLsb' 44 4

/-- RSVD, bits [43:40]. -/
def cmdRsvd (w : CmdWord) : BitVec 4 := w.extractLsb' 40 4

/-- TARGET, bits [39:32]. -/
def cmdTarget (w : CmdWord) : BitVec 8 := w.extractLsb' 32 8

/-- VALUE, bits [31:0]. -/
def cmdValue (w : CmdWord) : F32 := w.extractLsb' 0 32

/-- `word(k, t, v)` of 42_command_mux.md R111. -/
def cmdAssemble (k : BitVec 4) (t : BitVec 8) (v : F32) : CmdWord := k ++ 0#4 ++ t ++ v

/-- KIND codes (30_encoding.md R56). -/
def kindNone : BitVec 4 := 0x0#4
/-- See `kindNone`. -/
def kindLocalDuty : BitVec 4 := 0x1#4
/-- See `kindNone`. -/
def kindBusDuty : BitVec 4 := 0x2#4
/-- See `kindNone`. -/
def kindBusCurrent : BitVec 4 := 0x3#4
/-- See `kindNone`. -/
def kindBusCurrentBrake : BitVec 4 := 0x4#4

/-! ### UOP7 fields (30_encoding.md R60) and the 16-bit carrier (log 1) -/

/-- OPID, bits [6:2]. -/
def uopOpid (b : BitVec 16) : BitVec 5 := b.extractLsb' 2 5

/-- INST, bits [1:0]. -/
def uopInst (b : BitVec 16) : BitVec 2 := b.extractLsb' 0 2

/-- The operand, bits [11:8] of the carrier. -/
def uopOperand (b : BitVec 16) : BitVec 4 := b.extractLsb' 8 4

/-- Bits 7 and [15:12] of the carrier are 0. -/
def uopSpareZero (b : BitVec 16) : Bool := b.extractLsb' 12 4 == 0#4 && b.extractLsb' 7 1 == 0#1

/-- The carrier of OPID, INST and operand. -/
def uopAssemble (opid : BitVec 5) (inst : BitVec 2) (x : BitVec 4) : RawWord :=
  .uop (0#4 ++ x ++ 0#1 ++ opid ++ inst)

/-- An operation outside the DBC family: INST must be 0b00 (30_encoding.md R60). -/
def withoutInst (inst : BitVec 2) (r : Except Reject Instr) : Except Reject Instr :=
  if inst = 0#2 then r else .error (.instOutsideDbc inst)

/-- An operation without an operand of its own (log 11). -/
def withoutOperand (x : BitVec 4) (i : Instr) : Except Reject Instr :=
  if x = 0#4 then .ok i else .error (.operandUnused x)

/-- A DBC operation: INST names the debounce circuit, 0b11 is reserved (30_encoding.md R60). -/
def byInst (inst : BitVec 2) (x : BitVec 4) (p a b : Instr) : Except Reject Instr :=
  match inst.toNat with
  | 0 => withoutOperand x p
  | 1 => withoutOperand x a
  | 2 => withoutOperand x b
  | _ => .error .reservedInst

/-- The operand of `MUX_EMIT` (log 11), in the order of 42_command_mux.md R110. -/
def decodeSource (x : BitVec 4) : Except Reject Instr :=
  match x.toNat with
  | 0 => .ok (.muxEmit .tdl)
  | 1 => .ok (.muxEmit .tdb)
  | 2 => .ok (.muxEmit .cur)
  | 3 => .ok (.muxEmit .brk)
  | 4 => .ok (.muxEmit .ntl)
  | _ => .error (.reservedSource x)

/-- The operand of `MUX_WAIT` (log 11). -/
def decodeWait (x : BitVec 4) : Except Reject Instr :=
  match x.toNat with
  | 0 => .ok (.muxWait .settle)
  | 1 => .ok (.muxWait .period)
  | _ => .error (.reservedWait x)

/-- The OPID table of 30_encoding.md R60. -/
def decodeOp (opid : BitVec 5) (inst : BitVec 2) (x : BitVec 4) : Except Reject Instr :=
  match opid.toNat with
  | 0x00 => withoutInst inst (.ok (.step x))
  | 0x01 => withoutInst inst (withoutOperand x .reset)
  | 0x02 => byInst inst x .dbcUpdateP .dbcUpdateA .dbcUpdateB
  | 0x03 => byInst inst x .dbcCmpP .dbcCmpA .dbcCmpB
  | 0x04 => byInst inst x .dbcClearP .dbcClearA .dbcClearB
  | 0x05 => withoutInst inst (withoutOperand x .seqToggle)
  | 0x06 => withoutInst inst (withoutOperand x .seqDriveDuty)
  | 0x07 => withoutInst inst (withoutOperand x .seqArm)
  | 0x08 => withoutInst inst (withoutOperand x .seqTick)
  | 0x09 => withoutInst inst (withoutOperand x .seqNeutral)
  | 0x0A => withoutInst inst (decodeSource x)
  | 0x0B => withoutInst inst (decodeWait x)
  | _ => .error (.reservedOpid opid)

/-- A UOP7 word with its operand. -/
def decodeUop (b : BitVec 16) : Except Reject Instr :=
  if uopSpareZero b then decodeOp (uopOpid b) (uopInst b) (uopOperand b) else .error .carrierBits

/-- A command word (30_encoding.md R55, R56, R59). -/
def decodeCmd (w : CmdWord) : Except Reject Instr :=
  if cmdRsvd w ≠ 0#4 then .error (.rsvdNotZero (cmdRsvd w))
  else match (cmdKind w).toNat with
  | 0x0 => if cmdTarget w = 0#8 ∧ cmdValue w = 0#32 then .ok .cmdNone else .error .noneFields
  | 0x1 => if cmdTarget w = 0#8 then .ok (.cmdLocalDuty (cmdValue w)) else .error (.localTarget (cmdTarget w))
  | 0x2 => .ok (.cmdBusDuty (cmdTarget w) (cmdValue w))
  | 0x3 => .ok (.cmdBusCurrent (cmdTarget w) (cmdValue w))
  | 0x4 => .ok (.cmdBusCurrentBrake (cmdTarget w) (cmdValue w))
  | _ => .error (.reservedKind (cmdKind w))

/-- The operation a presented word names, or why it names none. -/
def decode : RawWord → Except Reject Instr
  | .uop b => decodeUop b
  | .cmd w => decodeCmd w

/-! ### The encoder -/

/-- INST codes (30_encoding.md R60). -/
def encodeInst : DbcInst → BitVec 2
  | .p => 0#2
  | .a => 1#2
  | .b => 2#2

/-- Operand codes of `MUX_EMIT` (log 11). -/
def encodeSource : Source → BitVec 4
  | .tdl => 0#4
  | .tdb => 1#4
  | .cur => 2#4
  | .brk => 3#4
  | .ntl => 4#4

/-- Operand codes of `MUX_WAIT` (log 11). -/
def encodeWait : WaitSel → BitVec 4
  | .settle => 0#4
  | .period => 1#4

/-- The word that presents an operation (30_encoding.md R55, R56, R60). -/
def encode : Instr → RawWord
  | .step x => uopAssemble 0x00#5 0#2 x
  | .reset => uopAssemble 0x01#5 0#2 0#4
  | .dbcUpdateP => uopAssemble 0x02#5 (encodeInst .p) 0#4
  | .dbcUpdateA => uopAssemble 0x02#5 (encodeInst .a) 0#4
  | .dbcUpdateB => uopAssemble 0x02#5 (encodeInst .b) 0#4
  | .dbcCmpP => uopAssemble 0x03#5 (encodeInst .p) 0#4
  | .dbcCmpA => uopAssemble 0x03#5 (encodeInst .a) 0#4
  | .dbcCmpB => uopAssemble 0x03#5 (encodeInst .b) 0#4
  | .dbcClearP => uopAssemble 0x04#5 (encodeInst .p) 0#4
  | .dbcClearA => uopAssemble 0x04#5 (encodeInst .a) 0#4
  | .dbcClearB => uopAssemble 0x04#5 (encodeInst .b) 0#4
  | .seqToggle => uopAssemble 0x05#5 0#2 0#4
  | .seqDriveDuty => uopAssemble 0x06#5 0#2 0#4
  | .seqArm => uopAssemble 0x07#5 0#2 0#4
  | .seqTick => uopAssemble 0x08#5 0#2 0#4
  | .seqNeutral => uopAssemble 0x09#5 0#2 0#4
  | .muxEmit src => uopAssemble 0x0A#5 0#2 (encodeSource src)
  | .muxWait sel => uopAssemble 0x0B#5 0#2 (encodeWait sel)
  | .cmdNone => .cmd (cmdAssemble kindNone 0#8 0#32)
  | .cmdLocalDuty v => .cmd (cmdAssemble kindLocalDuty 0#8 v)
  | .cmdBusDuty t v => .cmd (cmdAssemble kindBusDuty t v)
  | .cmdBusCurrent t v => .cmd (cmdAssemble kindBusCurrent t v)
  | .cmdBusCurrentBrake t v => .cmd (cmdAssemble kindBusCurrentBrake t v)

/-! ### The numbering of opcode_table.json -/

/-- The presented word of a table row's bits: a row of at most 16 bits is a UOP7 word (its operand, if the bits reach so
far, in bits [11:8]); a longer row is a CMD48 word. Bits of `w` from `nbits` up are not the instruction's. -/
def rawOfTable (nbits w : Nat) : RawWord :=
  if nbits ≤ 16 then .uop (BitVec.ofNat 16 (w % 2 ^ nbits)) else .cmd (BitVec.ofNat 48 (w % 2 ^ nbits))

/-- The operation the decoder reads from a table row's bits; no row is longer than 48 bits. -/
def decodeTableWord (nbits w : Nat) : Option Instr :=
  if nbits ≤ 48 then
    match decode (rawOfTable nbits w) with
    | .ok i => some i
    | .error _ => none
  else none

end Sys2Proof
end

