-- ==== Sys2Proof/Config.lean ====
section
/-! DEFINITION. The implementation parameters of 00_scope.md R8, their defaults, and the free values that stand for the
parameters the spec leaves OPEN. -/

namespace Sys2Proof

/-- The two members of the source's direction enumeration (10_state.md R25). -/
inductive DirName where
  | openingTarget
  | closingTarget
deriving DecidableEq, Repr

/-- The parameters of 00_scope.md R8, and `WDT_TIMEOUT_MS` of 92_eei_decisions.md D31. A parameter the spec leaves OPEN is
an `Option`: `none` is the open parameter, whose value is then a free value of this file; `some v` is a configured value. -/
structure Params where
  /-- `N_P`, threshold of the primary comparator. -/
  nP : Nat
  /-- `N_A`, threshold of the aux A comparator. -/
  nA : Nat
  /-- `N_B`, threshold of the aux B comparator. -/
  nB : Nat
  /-- `ARM_MS`, countdown load value. -/
  armMs : Nat
  /-- `PERIOD_MS`, countdown decrement per step and nominal sleep. -/
  periodMs : Nat
  /-- `SETTLE_MS`, extra wait after each fired trigger. -/
  settleMs : Nat
  /-- `TARGET_ID`, bus target id. -/
  targetId : Nat
  /-- `CUR_A`, amps of the aux A command. -/
  curA : F32
  /-- `CUR_B`, amps of the aux B command. -/
  curB : F32
  /-- `MAX_DUTY`, magnitude of the drive duty (OPEN). -/
  maxDuty : Option F32
  /-- `CNT_W`, width of each debounce counter. -/
  cntW : Nat
  /-- `CD_W`, width of the countdown register. -/
  cdW : Nat
  /-- `DIR_RESET`, value of DIR after reset. -/
  dirReset : Bool
  /-- `DIR1_NAME`, the member that DIR = 1 names (OPEN). -/
  dir1Name : Option DirName
  /-- `LINE_P` (OPEN). -/
  lineP : Option Nat
  /-- `LINE_A` (OPEN). -/
  lineA : Option Nat
  /-- `LINE_B` (OPEN). -/
  lineB : Option Nat
  /-- `WDT_TIMEOUT_MS`, the environment's watchdog timeout (OPEN). -/
  wdtTimeoutMs : Option Nat
deriving DecidableEq, Repr

/-- The default column of 00_scope.md R8, with every OPEN parameter open. -/
def Params.default : Params where
  nP := 10
  nA := 5
  nB := 5
  armMs := 8000
  periodMs := 10
  settleMs := 500
  targetId := 99
  curA := 0x3F800000#32
  curB := 0x3F800000#32
  maxDuty := none
  cntW := 8
  cdW := 14
  dirReset := false
  dir1Name := none
  lineP := none
  lineA := none
  lineB := none
  wdtTimeoutMs := none

/-- FREE VALUE (log 4). The open `MAX_DUTY`, as one less than its binary32 word: the words of the finite values `v` with
`0 < v ≤ 1.0` are exactly 0x00000001 to 0x3F800000, so every value that 00_scope.md R9(e) admits is possible and no other. -/
opaque Config.openMaxDutyIndex : Fin 0x3F800000

/-- FREE VALUE (log 5). The open `DIR1_NAME`: true for Opening-target. -/
opaque Config.openDir1IsOpening : Bool

/-- FREE VALUE (log 5). The open line ids; the argument is 0 for P, 1 for A, 2 for B. -/
opaque Config.openLine : Nat → Nat

/-- FREE VALUE (log 5). The open `WDT_TIMEOUT_MS`. -/
opaque Config.openWdtTimeoutMs : Nat

end Sys2Proof
end

