-- ==== Sys2Proof/Machine/Parameters.lean ====
section
/-! DEFINITION. What the parameters mean: the binary32 reading of a word, the constraints of 00_scope.md R9, and the values
the datapath takes from the configuration. -/

namespace Sys2Proof

/-! ### Binary32 words (00_scope.md R10; 93_implementation_defined.md G1 to G3) -/

/-- Sign bit. -/
def F32.sign (w : F32) : Bool := w.getLsbD 31

/-- Biased exponent field. -/
def F32.expField (w : F32) : Nat := (w.extractLsb' 23 8).toNat

/-- Fraction field. -/
def F32.frac (w : F32) : Nat := (w.extractLsb' 0 23).toNat

/-- The word is neither an infinity nor a NaN. -/
def F32.isFinite (w : F32) : Bool := w.expField != 255

/-- The magnitude of a finite word, in units of 2^-149 (an exact natural number for every finite binary32 value). -/
def F32.magnitude (w : F32) : Nat :=
  if w.expField = 0 then w.frac else (2 ^ 23 + w.frac) * 2 ^ (w.expField - 1)

/-- The exact value of a finite word, in units of 2^-149. -/
def F32.scaled (w : F32) : Int := if w.sign then -(w.magnitude : Int) else (w.magnitude : Int)

/-- 1.0 in units of 2^-149. -/
def F32.scaledOne : Int := 2 ^ 149

/-- Negation flips bit 31 (30_encoding.md R58). -/
def F32.neg (w : F32) : F32 := w ^^^ 0x80000000#32

/-- +0.0, the neutral duty (30_encoding.md R58). -/
def F32.neutral : F32 := 0x00000000#32

/-- Finite with `0 < v ≤ 1.0`, the range 00_scope.md R9(e) gives `MAX_DUTY`. -/
def F32.isMaxDuty (w : F32) : Bool :=
  w.isFinite && decide (0 < w.scaled) && decide (w.scaled ≤ F32.scaledOne)

/-! ### The constraints of 00_scope.md R9, one by one -/

/-- R9(a): an update never saturates inside the bank. -/
def Params.legalThresholds (p : Params) : Bool :=
  decide (p.nP + 1 ≤ 2 ^ p.cntW - 1) && decide (p.nA + 1 ≤ 2 ^ p.cntW - 1) && decide (p.nB + 1 ≤ 2 ^ p.cntW - 1)

/-- R9(b). -/
def Params.legalArm (p : Params) : Bool := decide (0 < p.armMs) && decide (p.armMs < 2 ^ p.cdW)

/-- R9(c). -/
def Params.legalPeriod (p : Params) : Bool := decide (0 < p.periodMs) && decide (p.periodMs < 2 ^ p.cdW)

/-- R9(d). -/
def Params.legalTarget (p : Params) : Bool := decide (p.targetId ≤ 255)

/-- R9(e); the open `MAX_DUTY` meets it by the range of its free value (Config.openMaxDutyIndex). -/
def Params.legalMaxDuty (p : Params) : Bool :=
  match p.maxDuty with
  | none => true
  | some m => m.isMaxDuty

/-- R9(f). -/
def Params.legalCurrents (p : Params) : Bool := p.curA.isFinite && p.curB.isFinite

/-- R9(a) to (f); R9(g), `SETTLE_MS >= 0`, holds of every natural number. -/
def Params.legal (p : Params) : Bool :=
  p.legalThresholds && p.legalArm && p.legalPeriod && p.legalTarget && p.legalMaxDuty && p.legalCurrents

/-! ### Values taken from the configuration -/

/-- `M`, the binary32 word of `MAX_DUTY` (30_encoding.md R58); open, it is the free value of log 4. -/
def Params.maxDutyWord (p : Params) : F32 :=
  match p.maxDuty with
  | none => BitVec.ofNat 32 (Config.openMaxDutyIndex.val + 1)
  | some m => m

/-- `duty(d)`: `-MAX_DUTY` for 0, `+MAX_DUTY` for 1 (41_sequencer.md R92). -/
def Params.duty (p : Params) (d : Bool) : F32 := if d then p.maxDutyWord else p.maxDutyWord.neg

/-- `zext_8(TARGET_ID)` (30_encoding.md R57). -/
def Params.targetField (p : Params) : BitVec 8 := BitVec.ofNat 8 p.targetId


/-- The physical lines of the three buttons (00_scope.md R8); an open one is the free value of log 5. -/
def Params.lineOfP (p : Params) : Nat := p.lineP.getD (Config.openLine 0)

/-- See `Params.lineOfP`. -/
def Params.lineOfA (p : Params) : Nat := p.lineA.getD (Config.openLine 1)

/-- See `Params.lineOfP`. -/
def Params.lineOfB (p : Params) : Nat := p.lineB.getD (Config.openLine 2)

/-- The watchdog timeout of the environment (92_eei_decisions.md D31); open, it is the free value of log 5. -/
def Params.watchdogTimeout (p : Params) : Nat := p.wdtTimeoutMs.getD Config.openWdtTimeoutMs

/-- The other member of the direction enumeration. -/
def DirName.other : DirName → DirName
  | .openingTarget => .closingTarget
  | .closingTarget => .openingTarget

/-- The member that a value of DIR names (10_state.md R25); open, DIR = 1 names the free value of log 5. -/
def Params.directionName (p : Params) (d : Bool) : DirName :=
  let one := p.dir1Name.getD (if Config.openDir1IsOpening then .openingTarget else .closingTarget)
  if d then one else one.other

end Sys2Proof
end

