-- ==== Sys2Proof/Machine/State.lean ====
section
/-! DEFINITION. What the block holds: the seven registers of 10_state.md R20, its action list and wires, the configuration,
and the operations presented to it. -/

namespace Sys2Proof.Machine

/-- An action of a step (00_scope.md R11). -/
inductive Action where
  /-- Present a command word at the command output. -/
  | emit (w : CmdWord)
  /-- Ask the environment to wait that many milliseconds. -/
  | wait (ms : Nat)
deriving DecidableEq, Repr

/-- The condition and data wires of 10_state.md R28 and 41_sequencer.md, as last driven. `fire_P`, `fire_A`, `fire_B` are
views of them (Machine/Flags.lean). -/
structure Wires where
  /-- `s_P`, 1 = asserted. -/
  sP : Bool
  /-- `s_A`. -/
  sA : Bool
  /-- `s_B`. -/
  sB : Bool
  /-- `EXT`, bit 3 of the SIW. -/
  ext : Bool
  /-- `u_P`, the updated counter value. -/
  uP : Nat
  /-- `u_A`. -/
  uA : Nat
  /-- `u_B`. -/
  uB : Nat
  /-- `hit_P`, the comparator output. -/
  hitP : Bool
  /-- `hit_A`. -/
  hitA : Bool
  /-- `hit_B`. -/
  hitB : Bool
  /-- `dir1`, the direction after the toggle (41_sequencer.md R90). -/
  dir1 : Bool
  /-- `duty(dir1)` (41_sequencer.md R92). -/
  duty : F32
  /-- `cd1`, the countdown after the arm (41_sequencer.md R93). -/
  cd1 : Nat
  /-- `cd2`, the countdown after the tick (41_sequencer.md R94). -/
  cd2 : Nat
  /-- `neutral` (41_sequencer.md R95). -/
  neutral : Bool
deriving DecidableEq, Repr

/-- All wires 0 (DESIGN CHOICE, log 7; no STEP reads what a wire held before it). -/
def Wires.zero : Wires where
  sP := false
  sA := false
  sB := false
  ext := false
  uP := 0
  uA := 0
  uB := 0
  hitP := false
  hitA := false
  hitB := false
  dir1 := false
  duty := 0#32
  cd1 := 0
  cd2 := 0
  neutral := false

/-- The machine. The first seven fields are the block's state (10_state.md R20); `acts` is its output; `wires`, `params`
and `port` are described at log 7, log 3 and log 1. -/
structure State where
  /-- `CNT_P`. -/
  cntP : Nat
  /-- `CNT_A`. -/
  cntA : Nat
  /-- `CNT_B`. -/
  cntB : Nat
  /-- `DIR`. -/
  dir : Bool
  /-- `CD`. -/
  cd : Nat
  /-- `CMD`. -/
  cmd : CmdWord
  /-- `LDR`. -/
  ldr : F32
  /-- `acts`, the ordered action list of the operation last run (43_step.md R131, R140). -/
  acts : List Action
  /-- The wires as last driven. -/
  wires : Wires
  /-- The configuration; no operation writes it (10_state.md R21). -/
  params : Params
  /-- Operations presented and not yet run, oldest first. -/
  port : List RawWord
deriving DecidableEq, Repr

/-- Why the machine stops with a fault. The block has none (60_exceptions.md R150). -/
inductive Fault where
  /-- Raised by `Loop.iterate` (Machine/Environment.lean) only, never by `step` or `exec`: the environment let the watchdog
  starve, fatal at system level (60_exceptions.md R152, 93_implementation_defined.md I18). Safe: the run stops. -/
  | watchdogStarved
deriving DecidableEq, Repr

/-- Why the model gives a situation no meaning (60_exceptions.md R151). -/
inductive Refusal where
  /-- Raised by an arm of `exec` whose instruction has no meaning yet; no arm is in this case. Safe. -/
  | notModelled (mnemonic : String)
  /-- Raised by `step`: the configuration breaks 00_scope.md R9 (R151(a)). Safe. -/
  | badConfiguration
  /-- Raised by `step` and by the emission checker: the word names no operation or is no command (R151(c), (d)). Safe. -/
  | badWord (why : Reject)
  /-- Raised by the meaning of `CMD.NONE` and by the emission checker: a word of KIND NONE is never emitted, and one that is
  met is refused (30_encoding.md R59). Safe. -/
  | noneEmitted
  /-- Raised by the trace runner: the trace does not start with `RESET` and no start state is given (R151(b)). Safe. -/
  | traceWithoutReset
  /-- Raised by the trace runner: the start state given is outside the reachable set (R151(e)). Safe. -/
  | startStateUnreachable
  /-- Raised by the trace reader: the line is no line of the trace syntax (30_encoding.md R62, R63). Safe. -/
  | badTraceLine
  /-- Raised by `Loop.iterate` and `Loop.start`: the environment may not do this in its present RunState
  (60_exceptions.md R159). Safe. -/
  | loopNotRunning
deriving DecidableEq, Repr

/-- The machine right after reset (70_reset_and_hazards.md R170), with the default configuration of 00_scope.md R8. -/
def State.reset : State where
  cntP := 0
  cntA := 0
  cntB := 0
  dir := Params.default.dirReset
  cd := 0
  cmd := 0#48
  ldr := 0#32
  acts := []
  wires := Wires.zero
  params := Params.default
  port := []

end Sys2Proof.Machine
end

