-- ==== Sys2Proof/Machine/Ops.lean ====
section
/-! DEFINITION. The named operations over the registers, the action list and the port. The block has no memory
(20_memory.md R40) and takes no exception (60_exceptions.md R150), so none of these is a memory access or a trap entry. -/

namespace Sys2Proof.Machine

/-! ### Saturating arithmetic (00_scope.md R12) -/

/-- `sat_inc_N(c)`. -/
def satInc (n c : Nat) : Nat := if c = 2 ^ n - 1 then c else c + 1

/-- `sat_dec(c)`. -/
def satDec (c : Nat) : Nat := if c > 0 then c - 1 else 0

/-- `sat_sub(c, k)`. -/
def satSub (c k : Nat) : Nat := if c > k then c - k else 0

/-! ### Register accessors -/

/-- `CNT_i` (10_state.md R23). -/
def State.cnt (s : State) : DbcInst → Nat
  | .p => s.cntP
  | .a => s.cntA
  | .b => s.cntB

/-- `CNT_i <- v`. -/
def State.writeCnt (s : State) (i : DbcInst) (v : Nat) : State :=
  match i with
  | .p => { s with cntP := v }
  | .a => { s with cntA := v }
  | .b => { s with cntB := v }

/-- `DIR <- d` (10_state.md R25). -/
def State.writeDir (s : State) (d : Bool) : State := { s with dir := d }

/-- `CD <- v` (10_state.md R26). -/
def State.writeCd (s : State) (v : Nat) : State := { s with cd := v }

/-- Drive the wires. -/
def State.drive (s : State) (w : Wires) : State := { s with wires := w }

/-- `N_i` (40_debounce.md R74). -/
def threshold (p : Params) : DbcInst → Nat
  | .p => p.nP
  | .a => p.nA
  | .b => p.nB

/-! ### Actions -/

/-- The word is a LOCAL_DUTY word (30_encoding.md R56). -/
def isLocalDuty (w : CmdWord) : Bool := cmdKind w == kindLocalDuty

/-- The word is one of the three bus kinds (30_encoding.md R56). -/
def isBusKind (w : CmdWord) : Bool :=
  cmdKind w == kindBusDuty || cmdKind w == kindBusCurrent || cmdKind w == kindBusCurrentBrake

/-- `CMD` after a word is emitted (42_command_mux.md R116) and `LDR` after it (R117): one `Emit(w)`, latched. -/
def State.emit (s : State) (w : CmdWord) : State :=
  { s with
    acts := s.acts ++ [.emit w]
    cmd := w
    ldr := if isLocalDuty w then cmdValue w else s.ldr }

/-- `acts <- acts ++ [Wait(ms)]` (42_command_mux.md R118). -/
def State.wait (s : State) (ms : Nat) : State := { s with acts := s.acts ++ [.wait ms] }

/-- The words of an action list, in order. -/
def emits : List Action → List CmdWord
  | [] => []
  | .emit w :: rest => w :: emits rest
  | .wait _ :: rest => emits rest

/-- The wait lengths of an action list, in order. -/
def waits : List Action → List Nat
  | [] => []
  | .emit _ :: rest => waits rest
  | .wait ms :: rest => ms :: waits rest

/-- `CMD` after the actions, from its value before them (42_command_mux.md R116). -/
def cmdAfter (acts : List Action) (cmd : CmdWord) : CmdWord := (emits acts).getLastD cmd

/-- `LDR` after the actions, from its value before them (42_command_mux.md R117). -/
def ldrAfter (acts : List Action) (ldr : F32) : F32 :=
  (((emits acts).filter isLocalDuty).map cmdValue).getLastD ldr

/-! ### Reset -/

/-- The register writes of 70_reset_and_hazards.md R170. The configuration, the wires ("Flags written: none") and the
operations still presented are not touched; the action list of a RESET is empty. -/
def State.applyReset (s : State) : State :=
  { s with
    cntP := 0
    cntA := 0
    cntB := 0
    dir := s.params.dirReset
    cd := 0
    cmd := 0#48
    ldr := 0#32
    acts := [] }

/-! ### The port -/

/-- The environment presents a word; it is run after those presented before it. -/
def State.present (s : State) (r : RawWord) : State := { s with port := s.port ++ [r] }

/-- The machine with a word presented ahead of every other, so that the next step runs it. -/
def State.presentFirst (s : State) (r : RawWord) : State := { s with port := r :: s.port }

/-- The machine with the rest of the port, once its oldest word is taken. -/
def State.withPort (s : State) (rest : List RawWord) : State := { s with port := rest }

/-- What the block takes from its port: a configuration that breaks 00_scope.md R9 is refused before anything is run; an
empty port is `none`; a word that names no operation is refused (60_exceptions.md R151(a), (c), (d)). -/
def State.take (s : State) : Except Refusal (Option (Instr × State)) :=
  if s.params.legal then
    match s.port with
    | [] => .ok none
    | r :: rest =>
      match decode r with
      | .ok i => .ok (some (i, s.withPort rest))
      | .error why => .error (.badWord why)
  else .error .badConfiguration

/-! ### Ranges -/

/-- The ranges of 10_state.md R24 and 60_exceptions.md R151(e): each counter in `0 .. N_i`, `CD` at most `ARM_MS`. -/
def State.inRange (s : State) : Bool :=
  decide (s.cntP ≤ s.params.nP) && decide (s.cntA ≤ s.params.nA) && decide (s.cntB ≤ s.params.nB)
    && decide (s.cd ≤ s.params.armMs)

end Sys2Proof.Machine
end

