-- ==== Sys2Proof/Machine/Operands.lean ====
section
/-! DEFINITION. Every operand form: the fields of the SIW (30_encoding.md R50, 40_debounce.md R75), the wires an operation
reads or drives, and the selects of the command output multiplexer (42_command_mux.md R110 to R112). -/

namespace Sys2Proof.Machine

/-! ### SIW4 -/

/-- `s_i`, the inverted pin bit (40_debounce.md R75). -/
def sample (siw : Siw) : DbcInst → Bool
  | .p => !siw.getLsbD 0
  | .a => !siw.getLsbD 1
  | .b => !siw.getLsbD 2

/-- `EXT`, bit 3 (30_encoding.md R50). -/
def extBit (siw : Siw) : Bool := siw.getLsbD 3

/-- The SIW of raw pin levels and the gate's take (30_encoding.md R50). -/
def siwOf (pinP pinA pinB ext : Bool) : Siw :=
  BitVec.ofBool ext ++ BitVec.ofBool pinB ++ BitVec.ofBool pinA ++ BitVec.ofBool pinP

/-! ### Wires by debounce circuit -/

/-- `s_i`. -/
def Wires.s (w : Wires) : DbcInst → Bool
  | .p => w.sP
  | .a => w.sA
  | .b => w.sB

/-- `u_i`. -/
def Wires.u (w : Wires) : DbcInst → Nat
  | .p => w.uP
  | .a => w.uA
  | .b => w.uB

/-- `hit_i`. -/
def Wires.hit (w : Wires) : DbcInst → Bool
  | .p => w.hitP
  | .a => w.hitA
  | .b => w.hitB

/-- Drive `u_i`. -/
def Wires.driveU (w : Wires) (i : DbcInst) (v : Nat) : Wires :=
  match i with
  | .p => { w with uP := v }
  | .a => { w with uA := v }
  | .b => { w with uB := v }

/-- Drive `hit_i`. -/
def Wires.driveHit (w : Wires) (i : DbcInst) (v : Bool) : Wires :=
  match i with
  | .p => { w with hitP := v }
  | .a => { w with hitA := v }
  | .b => { w with hitB := v }

/-- Slot S3: drive the samples and EXT from the SIW (43_step.md R131). -/
def Wires.driveSamples (w : Wires) (siw : Siw) : Wires :=
  { w with sP := sample siw .p, sA := sample siw .a, sB := sample siw .b, ext := extBit siw }

/-! ### The command output multiplexer -/

/-- KIND select (42_command_mux.md R110). -/
def sourceKind : Source → BitVec 4
  | .tdl => kindLocalDuty
  | .tdb => kindBusDuty
  | .cur => kindBusCurrent
  | .brk => kindBusCurrentBrake
  | .ntl => kindLocalDuty

/-- TARGET select (42_command_mux.md R110). -/
def sourceTarget (p : Params) : Source → BitVec 8
  | .tdl => 0#8
  | .tdb => p.targetField
  | .cur => p.targetField
  | .brk => p.targetField
  | .ntl => 0#8

/-- VALUE select; `dir1` is the toggle's direction (42_command_mux.md R110, R112). -/
def sourceValue (p : Params) (dir1 : Bool) : Source → F32
  | .tdl => p.duty dir1
  | .tdb => p.duty dir1
  | .cur => p.curA
  | .brk => p.curB
  | .ntl => F32.neutral

/-- The word of a source (42_command_mux.md R111). -/
def sourceWord (p : Params) (dir1 : Bool) (src : Source) : CmdWord :=
  cmdAssemble (sourceKind src) (sourceTarget p src) (sourceValue p dir1 src)

/-- The wait length of a `MUX_WAIT` operand (42_command_mux.md R118). -/
def waitMs (p : Params) : WaitSel → Nat
  | .settle => p.settleMs
  | .period => p.periodMs

end Sys2Proof.Machine
end

