-- ==== Sys2Proof/Machine/Flags.lean ====
section
/-! DEFINITION. The condition wires of 10_state.md R28 as functions: comparators, fires, neutral. -/

namespace Sys2Proof.Machine

/-- `hit_i = (u_i > N_i)`, unsigned and strict (40_debounce.md R72). -/
def comparator (p : Params) (i : DbcInst) (u : Nat) : Bool := decide (u > threshold p i)

/-- `fire_P = hit_P or EXT`, `fire_A = hit_A`, `fire_B = hit_B` (43_step.md R132). -/
def Wires.fire (w : Wires) : DbcInst → Bool
  | .p => w.hitP || w.ext
  | .a => w.hitA
  | .b => w.hitB

/-- `neutral = (cd2 == 0)` (41_sequencer.md R95). -/
def isNeutral (cd2 : Nat) : Bool := cd2 == 0

/-- Drive `cd2`, and with it `neutral = (cd2 == 0)` (41_sequencer.md R94, "Flags written"; 10_state.md R28). -/
def Wires.driveTick (w : Wires) (cd2 : Nat) : Wires := { w with cd2 := cd2, neutral := isNeutral cd2 }

/-- `ACTIVE = (CD != 0)` (10_state.md R29). -/
def State.active (s : State) : Bool := s.cd != 0

end Sys2Proof.Machine
end

