-- ==== Sys2Proof/Machine/Debounce.lean ====
section
/-! DEFINITION. The debounce counter and comparator bank (40_debounce.md). -/

namespace Sys2Proof.Machine

/-- `u_i` from `CNT_i` and `s_i` (40_debounce.md R70). -/
def updatedCount (p : Params) (c : Nat) (s : Bool) : Nat := if s then satInc p.cntW c else satDec c

/-- What the clear stores (40_debounce.md R73). -/
def clearedCount (fire : Bool) (u : Nat) : Nat := if fire then 0 else u

/-- `DBC_UPDATE i`: the wire `u_i` (40_debounce.md R70). -/
def dbcUpdate (i : DbcInst) (s : State) : State :=
  s.drive (s.wires.driveU i (updatedCount s.params (s.cnt i) (s.wires.s i)))

/-- `DBC_CMP i`: the wire `hit_i` (40_debounce.md R72). -/
def dbcCmp (i : DbcInst) (s : State) : State :=
  s.drive (s.wires.driveHit i (comparator s.params i (s.wires.u i)))

/-- `DBC_CLEAR i`: the counter (40_debounce.md R73). -/
def dbcClear (i : DbcInst) (s : State) : State :=
  s.writeCnt i (clearedCount (s.wires.fire i) (s.wires.u i))

/-- `DBC_UPDATE.P` (R70). -/
def execDbcUpdateP (s : State) : Host.Outcome State Fault Refusal := .next (dbcUpdate .p s)

/-- `DBC_UPDATE.A` (R70). -/
def execDbcUpdateA (s : State) : Host.Outcome State Fault Refusal := .next (dbcUpdate .a s)

/-- `DBC_UPDATE.B` (R70). -/
def execDbcUpdateB (s : State) : Host.Outcome State Fault Refusal := .next (dbcUpdate .b s)

/-- `DBC_CMP.P` (R72). -/
def execDbcCmpP (s : State) : Host.Outcome State Fault Refusal := .next (dbcCmp .p s)

/-- `DBC_CMP.A` (R72). -/
def execDbcCmpA (s : State) : Host.Outcome State Fault Refusal := .next (dbcCmp .a s)

/-- `DBC_CMP.B` (R72). -/
def execDbcCmpB (s : State) : Host.Outcome State Fault Refusal := .next (dbcCmp .b s)

/-- `DBC_CLEAR.P` (R73). -/
def execDbcClearP (s : State) : Host.Outcome State Fault Refusal := .next (dbcClear .p s)

/-- `DBC_CLEAR.A` (R73). -/
def execDbcClearA (s : State) : Host.Outcome State Fault Refusal := .next (dbcClear .a s)

/-- `DBC_CLEAR.B` (R73). -/
def execDbcClearB (s : State) : Host.Outcome State Fault Refusal := .next (dbcClear .b s)

end Sys2Proof.Machine
end

