-- ==== Sys2Proof/Machine/Sequencer.lean ====
section
/-! DEFINITION. The bistable actuator sequencer (41_sequencer.md). -/

namespace Sys2Proof.Machine

/-- `dir1` (41_sequencer.md R90). -/
def toggledDir (fireP dir : Bool) : Bool := if fireP then !dir else dir

/-- `cd1` (41_sequencer.md R93). -/
def armedCount (p : Params) (fireP : Bool) (cd : Nat) : Nat := if fireP then p.armMs else cd

/-- `cd2` (41_sequencer.md R94). -/
def tickedCount (p : Params) (cd1 : Nat) : Nat := satSub cd1 p.periodMs

/-- `SEQ_TOGGLE` (41_sequencer.md R90): with `fire_P` 0 the wire is DIR itself, and DIR keeps its value. -/
def execSeqToggle (s : State) : Host.Outcome State Fault Refusal :=
  let d := toggledDir (s.wires.fire .p) s.dir
  .next ((s.writeDir d).drive { s.wires with dir1 := d })

/-- `SEQ_DRIVE_DUTY` (41_sequencer.md R92), of the toggle's `dir1`. -/
def execSeqDriveDuty (s : State) : Host.Outcome State Fault Refusal :=
  .next (s.drive { s.wires with duty := s.params.duty s.wires.dir1 })

/-- `SEQ_ARM` (41_sequencer.md R93). -/
def execSeqArm (s : State) : Host.Outcome State Fault Refusal :=
  .next (s.drive { s.wires with cd1 := armedCount s.params (s.wires.fire .p) s.cd })

/-- `SEQ_TICK` (41_sequencer.md R94): CD, `cd2`, and the wire `neutral`. -/
def execSeqTick (s : State) : Host.Outcome State Fault Refusal :=
  let v := tickedCount s.params s.wires.cd1
  .next ((s.writeCd v).drive (s.wires.driveTick v))

/-- The emission of `SEQ_NEUTRAL`: the neutral word while `neutral` is 1 (41_sequencer.md R95). -/
def neutralAction (n : Bool) (s : State) : State :=
  match n with
  | true => s.emit (sourceWord s.params s.wires.dir1 .ntl)
  | false => s

/-- `SEQ_NEUTRAL` (41_sequencer.md R95): the wire, and one emission of the neutral word when it is 1. -/
def execSeqNeutral (s : State) : Host.Outcome State Fault Refusal :=
  .next (neutralAction (isNeutral s.wires.cd2) (s.drive { s.wires with neutral := isNeutral s.wires.cd2 }))

end Sys2Proof.Machine
end

