-- ==== Sys2Proof/Machine/Control.lean ====
section
/-! DEFINITION. STEP (43_step.md) and RESET (70_reset_and_hazards.md R170). -/

namespace Sys2Proof.Machine

/-- The wires of a step: slots S3, S4, S5-cmp and the sequencer's wires, each a function of the start-of-step registers and
the SIW (43_step.md R131, 10_state.md R28). -/
def stepWires (siw : Siw) (s : State) : Wires :=
  let uP := updatedCount s.params s.cntP (sample siw .p)
  let uA := updatedCount s.params s.cntA (sample siw .a)
  let uB := updatedCount s.params s.cntB (sample siw .b)
  let hitP := comparator s.params .p uP
  let fireP := hitP || extBit siw
  let dir1 := toggledDir fireP s.dir
  let cd1 := armedCount s.params fireP s.cd
  let cd2 := tickedCount s.params cd1
  { sP := sample siw .p
    sA := sample siw .a
    sB := sample siw .b
    ext := extBit siw
    uP := uP
    uA := uA
    uB := uB
    hitP := hitP
    hitA := comparator s.params .a uA
    hitB := comparator s.params .b uB
    dir1 := dir1
    duty := s.params.duty dir1
    cd1 := cd1
    cd2 := cd2
    neutral := isNeutral cd2 }

/-- The actions of slot S5a (43_step.md R133). -/
def actsPrimary (p : Params) (w : Wires) : List Action :=
  if w.fire .p then
    [.emit (sourceWord p w.dir1 .tdl), .emit (sourceWord p w.dir1 .tdb), .wait (waitMs p .settle)]
  else []

/-- The actions of slot S5b (43_step.md R134). -/
def actsAuxA (p : Params) (w : Wires) : List Action :=
  if w.fire .a then [.emit (sourceWord p w.dir1 .cur), .wait (waitMs p .settle)] else []

/-- The actions of slot S5c (43_step.md R135). -/
def actsAuxB (p : Params) (w : Wires) : List Action :=
  if w.fire .b then [.emit (sourceWord p w.dir1 .brk), .wait (waitMs p .settle)] else []

/-- The actions of slots S6 and S7 (43_step.md R131). -/
def actsNeutral (p : Params) (w : Wires) : List Action :=
  (if w.neutral then [.emit (sourceWord p w.dir1 .ntl)] else []) ++ [.wait (waitMs p .period)]

/-- `acts` of a step, in slot order (43_step.md R131, R136). -/
def stepActs (p : Params) (w : Wires) : List Action :=
  actsPrimary p w ++ actsAuxA p w ++ actsAuxB p w ++ actsNeutral p w

/-- The machine after a step (43_step.md R131): every register written from its start-of-step value, the multiplexer's two
registers from the finished action list. -/
def stepState (siw : Siw) (s : State) : State :=
  let w := stepWires siw s
  let acts := stepActs s.params w
  { s with
    cntP := clearedCount (w.fire .p) w.uP
    cntA := clearedCount (w.fire .a) w.uA
    cntB := clearedCount (w.fire .b) w.uB
    dir := w.dir1
    cd := w.cd2
    cmd := cmdAfter acts s.cmd
    ldr := ldrAfter acts s.ldr
    acts := acts
    wires := w }

/-- `STEP` (43_step.md R130). -/
def execStep (siw : Siw) (s : State) : Host.Outcome State Fault Refusal := .next (stepState siw s)

/-- `RESET` (70_reset_and_hazards.md R170). -/
def execReset (s : State) : Host.Outcome State Fault Refusal := .next s.applyReset

end Sys2Proof.Machine
end

