-- ==== Sys2Proof/Machine/Mux.lean ====
section
/-! DEFINITION. The command output multiplexer and register, and the command words (42_command_mux.md). -/

namespace Sys2Proof.Machine

/-- `MUX_EMIT src` (42_command_mux.md R115), latched into CMD and LDR (R116, R117; log 8). -/
def execMuxEmit (src : Source) (s : State) : Host.Outcome State Fault Refusal :=
  .next (s.emit (sourceWord s.params s.wires.dir1 src))

/-- `MUX_WAIT ms` (42_command_mux.md R118). -/
def execMuxWait (sel : WaitSel) (s : State) : Host.Outcome State Fault Refusal :=
  .next (s.wait (waitMs s.params sel))

/-- `CMD.NONE`: never emitted; a word of KIND NONE met as an emission is refused (30_encoding.md R59, 42_command_mux.md
R124; log 10). -/
def execCmdNone (_s : State) : Host.Outcome State Fault Refusal := .refused .noneEmitted

/-- `CMD.LOCAL_DUTY`: the word presented at the command output (42_command_mux.md R120, R116, R117; log 9). -/
def execCmdLocalDuty (value : F32) (s : State) : Host.Outcome State Fault Refusal :=
  .next (s.emit (cmdAssemble kindLocalDuty 0#8 value))

/-- `CMD.BUS_DUTY` (42_command_mux.md R121, R116; log 9). -/
def execCmdBusDuty (target : BitVec 8) (value : F32) (s : State) : Host.Outcome State Fault Refusal :=
  .next (s.emit (cmdAssemble kindBusDuty target value))

/-- `CMD.BUS_CURRENT` (42_command_mux.md R122, R116; log 9). -/
def execCmdBusCurrent (target : BitVec 8) (value : F32) (s : State) : Host.Outcome State Fault Refusal :=
  .next (s.emit (cmdAssemble kindBusCurrent target value))

/-- `CMD.BUS_CURRENT_BRAKE` (42_command_mux.md R123, R116; log 9). -/
def execCmdBusCurrentBrake (target : BitVec 8) (value : F32) (s : State) : Host.Outcome State Fault Refusal :=
  .next (s.emit (cmdAssemble kindBusCurrentBrake target value))

end Sys2Proof.Machine
end

