-- ==== Sys2Proof/Machine/Dispatch.lean ====
section
/-! DEFINITION. One arm per operation. -/

namespace Sys2Proof.Machine

def exec (i : Instr) (s : State) : Host.Outcome State Fault Refusal :=
  match i with
  | .step siw => Sys2Proof.Machine.execStep siw s
  | .reset => Sys2Proof.Machine.execReset s
  | .dbcUpdateP => Sys2Proof.Machine.execDbcUpdateP s
  | .dbcUpdateA => Sys2Proof.Machine.execDbcUpdateA s
  | .dbcUpdateB => Sys2Proof.Machine.execDbcUpdateB s
  | .dbcCmpP => Sys2Proof.Machine.execDbcCmpP s
  | .dbcCmpA => Sys2Proof.Machine.execDbcCmpA s
  | .dbcCmpB => Sys2Proof.Machine.execDbcCmpB s
  | .dbcClearP => Sys2Proof.Machine.execDbcClearP s
  | .dbcClearA => Sys2Proof.Machine.execDbcClearA s
  | .dbcClearB => Sys2Proof.Machine.execDbcClearB s
  | .seqToggle => Sys2Proof.Machine.execSeqToggle s
  | .seqDriveDuty => Sys2Proof.Machine.execSeqDriveDuty s
  | .seqArm => Sys2Proof.Machine.execSeqArm s
  | .seqTick => Sys2Proof.Machine.execSeqTick s
  | .seqNeutral => Sys2Proof.Machine.execSeqNeutral s
  | .muxEmit src => Sys2Proof.Machine.execMuxEmit src s
  | .muxWait sel => Sys2Proof.Machine.execMuxWait sel s
  | .cmdNone => Sys2Proof.Machine.execCmdNone s
  | .cmdLocalDuty value => Sys2Proof.Machine.execCmdLocalDuty value s
  | .cmdBusDuty target value => Sys2Proof.Machine.execCmdBusDuty target value s
  | .cmdBusCurrent target value => Sys2Proof.Machine.execCmdBusCurrent target value s
  | .cmdBusCurrentBrake target value => Sys2Proof.Machine.execCmdBusCurrentBrake target value s

end Sys2Proof.Machine
end

