-- ==== Sys2Proof/Machine/Step.lean ====
section
/-! DEFINITION. One step of the machine: the oldest operation at the port, if there is one. -/

namespace Sys2Proof.Machine

/-- Run the oldest presented operation. With none presented the block holds its state (60_exceptions.md R165; log 2). -/
def step (s : State) : Host.Outcome State Fault Refusal :=
  match s.take with
  | .error r => .refused r
  | .ok none => .next s
  | .ok (some (i, t)) => exec i t

/-- The machine with a row of opcode_table.json presented ahead of everything else, so that the next step runs it. -/
def State.withFetchWord (s : State) (nbits w : Nat) : State := s.presentFirst (rawOfTable nbits w)

end Sys2Proof.Machine
end

