-- ==== Sys2Proof/Machine/Environment.lean ====
section
/-! DEFINITION. The environment's side of the interface (60_exceptions.md R153 to R159, R166; 70_reset_and_hazards.md R172),
beside the block: 00_scope.md R6 puts it outside the block and asks for its contract, so that the loop can be closed
(log 15). Nothing here is called by `step` or `exec`. -/

namespace Sys2Proof.Machine

/-- The control loop's RunState (00_scope.md R6). -/
inductive RunState where
  | notStarted
  | running
  | stopRequested
  | stopped
deriving DecidableEq, Repr

/-- The external calls of 30_encoding.md R56, the timed sleep and the watchdog kick. -/
inductive ExternalCall where
  | setLocalDuty (value : F32)
  | sendBusDuty (target : BitVec 8) (value : F32)
  | sendBusCurrent (target : BitVec 8) (amps : F32)
  | sendBusCurrentBrake (target : BitVec 8) (amps : F32)
  | sleep (ms : Nat)
  | resetWatchdog
deriving DecidableEq, Repr

/-- The block and its environment. -/
structure Loop where
  /-- The block. -/
  block : State
  /-- The External Trigger Gate's pending flag (60_exceptions.md R153). -/
  gate : Bool
  /-- The loop's RunState. -/
  run : RunState
  /-- The external calls made so far, oldest first (20_memory.md R45). -/
  calls : List ExternalCall
deriving DecidableEq, Repr

/-- Before the loop starts. -/
def Loop.initial (p : Params) : Loop where
  block := { State.reset with params := p }
  gate := false
  run := .notStarted
  calls := []

/-! ### The External Trigger Gate -/

/-- `set()`: makes the flag 1; a second one while the flag is 1 is a no-op (60_exceptions.md R153). -/
def Loop.gateSet (l : Loop) : Loop := { l with gate := true }

/-- `take_if_set()`: reads and clears the flag in one action (60_exceptions.md R154). -/
def Loop.gateTake (l : Loop) : Bool × Loop := (l.gate, { l with gate := false })

/-! ### Performing a step's actions -/

/-- The external call a command word stands for (30_encoding.md R56). -/
def callOf (w : CmdWord) : Option ExternalCall :=
  match (cmdKind w).toNat with
  | 0x1 => some (.setLocalDuty (cmdValue w))
  | 0x2 => some (.sendBusDuty (cmdTarget w) (cmdValue w))
  | 0x3 => some (.sendBusCurrent (cmdTarget w) (cmdValue w))
  | 0x4 => some (.sendBusCurrentBrake (cmdTarget w) (cmdValue w))
  | _ => none

/-- The calls of an action list, in its order (20_memory.md R45). -/
def callsOf : List Action → List ExternalCall
  | [] => []
  | .emit w :: rest =>
    match callOf w with
    | some c => c :: callsOf rest
    | none => callsOf rest
  | .wait ms :: rest => .sleep ms :: callsOf rest

/-! ### The control loop -/

/-- `start()`: clear the gate, apply RESET (70_reset_and_hazards.md R172). Legal before the first run and after a stop;
refused otherwise (DESIGN CHOICE, log 15). -/
def Loop.start (l : Loop) : Host.Outcome Loop Fault Refusal :=
  match l.run with
  | .running => .refused .loopNotRunning
  | .stopRequested => .refused .loopNotRunning
  | .notStarted | .stopped =>
    match step (l.block.presentFirst (encode .reset)) with
    | .next b => .next { l with block := b, gate := false, run := .running }
    | .fault e => .fault e
    | .refused e => .refused e

/-- `stop()`: a request, seen at the next iteration boundary (60_exceptions.md R159). DESIGN CHOICE (log 20): the spec does not
say what a `stop()` does when no loop runs or a stop is already requested; here it changes nothing. -/
def Loop.requestStop (l : Loop) : Loop :=
  match l.run with
  | .running => { l with run := .stopRequested }
  | .notStarted | .stopRequested | .stopped => l

/-- The SIW of one iteration: the three lines sampled fresh, and the gate's take (60_exceptions.md R154, R166). -/
def Loop.siw (level : Nat → Bool) (l : Loop) : Siw :=
  let p := l.block.params
  siwOf (level p.lineOfP) (level p.lineOfA) (level p.lineOfB) l.gateTake.1

/-- The time of an iteration starves the watchdog: its waits and its further time reach the timeout. 60_exceptions.md R158 and
70_reset_and_hazards.md R180 want the timeout longer than the iteration. DESIGN CHOICE at equality (log 19): R152 speaks of
longer than the timeout. -/
def starves (p : Params) (acts : List Action) (extra : Nat) : Bool :=
  decide (p.watchdogTimeout ≤ (waits acts).sum + extra)

/-- The environment's duty of 70_reset_and_hazards.md R180 (60_exceptions.md R158, 92_eei_decisions.md D31): the timeout is
longer than the longest iteration. -/
def watchdogMargin (p : Params) (extra : Nat) : Bool :=
  decide (3 * p.settleMs + p.periodMs + extra < p.watchdogTimeout)

/-- One iteration in the order of 70_reset_and_hazards.md R172(4): check the stop request, kick the watchdog, run one STEP,
perform its actions. `level` is the raw level of each input line; `extra` is the time of the iteration beyond its requested
waits, in ms (work, and waits that take longer; 93_implementation_defined.md I9, I10). The run faults if the watchdog's
timeout is not longer than the iteration (60_exceptions.md R158; `starves`).
DESIGN CHOICE (log 21): the watchdog starves only in a running iteration; R152 does not say whether it also runs before the first
kick, or after the last one once a stop is seen. -/
def Loop.iterate (level : Nat → Bool) (extra : Nat) (l : Loop) : Host.Outcome Loop Fault Refusal :=
  match l.run with
  | .notStarted => .refused .loopNotRunning
  | .stopped => .refused .loopNotRunning
  | .stopRequested => .next { l with run := .stopped }
  | .running =>
    match step (l.block.presentFirst (encode (.step (l.siw level)))) with
    | .fault e => .fault e
    | .refused e => .refused e
    | .next b =>
      if starves b.params b.acts extra then .fault .watchdogStarved
      else .next { l.gateTake.2 with block := b, calls := l.calls ++ .resetWatchdog :: callsOf b.acts }

end Sys2Proof.Machine
end

