-- ==== Sys2Proof/Machine/Slots.lean ====
section
/-! DEFINITION. A step as the operations of its slots: 30_encoding.md R60 says the block runs exactly the operations of
43_step.md R131, in that order, once per step. STEP itself is Machine/Control.lean; this is the same step operation by
operation, and the sequences of operations that claims run. -/

namespace Sys2Proof.Machine

/-- Run `f` on the next state; a fault or a refusal ends the run. -/
def andThen (o : Host.Outcome State Fault Refusal) (f : State → Host.Outcome State Fault Refusal) :
    Host.Outcome State Fault Refusal :=
  match o with
  | .next s => f s
  | .fault r => .fault r
  | .refused r => .refused r

/-- Operations one after another. -/
def execAll : List Instr → State → Host.Outcome State Fault Refusal
  | [], s => .next s
  | i :: rest, s => andThen (exec i s) (execAll rest)

/-- When a slot's operation runs (42_command_mux.md R110, "enabled when"). -/
inductive SlotGuard where
  | always
  | ifFire (i : DbcInst)
deriving DecidableEq, Repr

/-- An operation at its slot. -/
structure Slot where
  guard : SlotGuard
  op : Instr
deriving DecidableEq, Repr

/-- The guard's wire. -/
def SlotGuard.holds (g : SlotGuard) (w : Wires) : Bool :=
  match g with
  | .always => true
  | .ifFire i => w.fire i

/-- The operations of 43_step.md R131 in slot order. The neutral emission of slot S6 is part of `SEQ_NEUTRAL`
(41_sequencer.md R95). -/
def slotProgram : List Slot :=
  [ ⟨.always, .dbcUpdateP⟩, ⟨.always, .dbcUpdateA⟩, ⟨.always, .dbcUpdateB⟩,
    ⟨.always, .dbcCmpP⟩, ⟨.always, .dbcCmpA⟩, ⟨.always, .dbcCmpB⟩,
    ⟨.always, .dbcClearP⟩, ⟨.always, .seqToggle⟩, ⟨.always, .seqDriveDuty⟩, ⟨.always, .seqArm⟩,
    ⟨.ifFire .p, .muxEmit .tdl⟩, ⟨.ifFire .p, .muxEmit .tdb⟩, ⟨.ifFire .p, .muxWait .settle⟩,
    ⟨.always, .dbcClearA⟩, ⟨.ifFire .a, .muxEmit .cur⟩, ⟨.ifFire .a, .muxWait .settle⟩,
    ⟨.always, .dbcClearB⟩, ⟨.ifFire .b, .muxEmit .brk⟩, ⟨.ifFire .b, .muxWait .settle⟩,
    ⟨.always, .seqTick⟩, ⟨.always, .seqNeutral⟩, ⟨.always, .muxWait .period⟩ ]

/-- Slot S3 and the empty action list with which a step begins (43_step.md R131). -/
def beginStep (siw : Siw) (s : State) : State :=
  { s with acts := [], wires := s.wires.driveSamples siw }

/-- One slot: its operation if its guard holds. -/
def runSlot (sl : Slot) (s : State) : Host.Outcome State Fault Refusal :=
  if sl.guard.holds s.wires then exec sl.op s else .next s

/-- Slots one after another. -/
def runSlots : List Slot → State → Host.Outcome State Fault Refusal
  | [], s => .next s
  | sl :: rest, s => andThen (runSlot sl s) (runSlots rest)

end Sys2Proof.Machine
end

