-- ==== Sys2Proof/WellFormed.lean ====
section
/-! DEFINITION. The checks on what is written down: a configuration (00_scope.md R9), an instruction, a trace line. -/

namespace Sys2Proof

/-- A duty the multiplexer can select for a bus word: `±m` with `0 < m ≤ 1.0` (30_encoding.md R58, 00_scope.md R9(e)). -/
def F32.isDriveDuty (w : F32) : Bool :=
  w.isFinite && decide (w.scaled ≠ 0) && decide (-F32.scaledOne ≤ w.scaled) && decide (w.scaled ≤ F32.scaledOne)

/-- A duty the multiplexer can select for a local word: a drive duty or +0.0 (30_encoding.md R56, 42_command_mux.md R120). -/
def F32.isLocalDuty (w : F32) : Bool := w.isDriveDuty || w == F32.neutral

/-- A configuration the model gives a meaning (00_scope.md R9). -/
abbrev Params.WellFormed (p : Params) : Prop := p.legal = true

/-- The VALUE of a command word is one that some configuration of 00_scope.md R9 lets the multiplexer select
(30_encoding.md R56, R58). Every other operation's operands are all legal (30_encoding.md R51, R110, R118). The model
gives the words outside this check a meaning too (log 9): it says which words a step can emit. -/
def Instr.wellFormed : Instr → Bool
  | .step _ => true
  | .reset => true
  | .dbcUpdateP => true
  | .dbcUpdateA => true
  | .dbcUpdateB => true
  | .dbcCmpP => true
  | .dbcCmpA => true
  | .dbcCmpB => true
  | .dbcClearP => true
  | .dbcClearA => true
  | .dbcClearB => true
  | .seqToggle => true
  | .seqDriveDuty => true
  | .seqArm => true
  | .seqTick => true
  | .seqNeutral => true
  | .muxEmit _ => true
  | .muxWait _ => true
  | .cmdNone => true
  | .cmdLocalDuty v => v.isLocalDuty
  | .cmdBusDuty _ v => v.isDriveDuty
  | .cmdBusCurrent _ v => v.isFinite
  | .cmdBusCurrentBrake _ v => v.isFinite

/-- See `Instr.wellFormed`. -/
abbrev Instr.WellFormed (i : Instr) : Prop := i.wellFormed = true

/-- The repeat count of `IDLE n` and `HOLD <set> n` is at least 1 (30_encoding.md R63). -/
def TraceLine.wellFormed : TraceLine → Bool
  | .reset => true
  | .step _ => true
  | .idle n => decide (1 ≤ n)
  | .hold _ n => decide (1 ≤ n)
  | .flap => true

/-- See `TraceLine.wellFormed`. -/
abbrev TraceLine.WellFormed (l : TraceLine) : Prop := l.wellFormed = true

end Sys2Proof
end

