-- ==== Sys2Proof/Machine/Trace.lean ====
section
/-! DEFINITION. Traces: the trace syntax (30_encoding.md R62, R63), running a trace (R64, 60_exceptions.md R151(b), (e)), and
checking an emission trace (R59, R151(c)). -/

namespace Sys2Proof.Machine

/-! ### Reading a trace text (log 16) -/

/-- Spaces and tabs separate the words of a line. -/
def isBlank (c : Char) : Bool := c == ' ' || c == '\t' || c == '\r'

/-- A comment runs from `;` to the end of the line (30_encoding.md R62). -/
def stripComment (l : List Char) : List Char := l.takeWhile (fun c => c != ';')

/-- The words of a line; `cur` is the word being read, last character first. -/
def wordsFrom : List Char → List Char → List (List Char)
  | [], cur => if cur.isEmpty then [] else [cur.reverse]
  | c :: rest, cur =>
    if isBlank c then (if cur.isEmpty then wordsFrom rest [] else cur.reverse :: wordsFrom rest [])
    else wordsFrom rest (c :: cur)

/-- The words of a line without its comment. -/
def wordsOf (l : List Char) : List (List Char) := wordsFrom (stripComment l) []

/-- Take one expected letter off the front, if it is there. -/
def takeLetter (c : Char) (l : List Char) : Bool × List Char :=
  match l with
  | [] => (false, [])
  | d :: rest => if d = c then (true, rest) else (false, d :: rest)

/-- `<set>`: the asserted inputs from P, A, B, X in that order, or `-` for none; SIW = `X, not B, not A, not P`
(30_encoding.md R62). -/
def parseSet (l : List Char) : Option Siw :=
  if l = ['-'] then some (siwOf true true true false)
  else if l = [] then none
  else
    let p := takeLetter 'P' l
    let a := takeLetter 'A' p.2
    let b := takeLetter 'B' a.2
    let x := takeLetter 'X' b.2
    if x.2 = [] then some (siwOf (!p.1) (!a.1) (!b.1) x.1) else none

/-- The value of a decimal digit. -/
def digitValue (c : Char) : Option Nat :=
  if '0'.toNat ≤ c.toNat ∧ c.toNat ≤ '9'.toNat then some (c.toNat - '0'.toNat) else none

/-- Decimal digits after `acc`. -/
def parseDigits : List Char → Nat → Option Nat
  | [], acc => some acc
  | c :: rest, acc =>
    match digitValue c with
    | some d => parseDigits rest (10 * acc + d)
    | none => none

/-- A decimal integer (30_encoding.md R63). -/
def parseDecimal (l : List Char) : Option Nat := if l = [] then none else parseDigits l 0

/-- One line: `none` for a line of blanks and comment only; a line that is none of R62 and R63, or whose count is 0, is
refused. -/
def parseLine (l : List Char) : Except Refusal (Option TraceLine) :=
  let checked (t : TraceLine) : Except Refusal (Option TraceLine) :=
    if t.wellFormed then .ok (some t) else .error .badTraceLine
  match wordsOf l with
  | [] => .ok none
  | [m] =>
    if m = ['R', 'E', 'S', 'E', 'T'] then .ok (some .reset)
    else if m = ['F', 'L', 'A', 'P'] then .ok (some .flap)
    else .error .badTraceLine
  | [m, x] =>
    if m = ['S', 'T', 'E', 'P'] then
      match parseSet x with
      | some siw => .ok (some (.step siw))
      | none => .error .badTraceLine
    else if m = ['I', 'D', 'L', 'E'] then
      match parseDecimal x with
      | some n => checked (.idle n)
      | none => .error .badTraceLine
    else .error .badTraceLine
  | [m, x, y] =>
    if m = ['H', 'O', 'L', 'D'] then
      match parseSet x, parseDecimal y with
      | some siw, some n => checked (.hold siw n)
      | _, _ => .error .badTraceLine
    else .error .badTraceLine
  | _ => .error .badTraceLine

/-- The lines of a text; `cur` is the line being read, last character first. -/
def linesFrom : List Char → List Char → List (List Char)
  | [], cur => [cur.reverse]
  | c :: rest, cur => if c = '\n' then cur.reverse :: linesFrom rest [] else linesFrom rest (c :: cur)

/-- The trace lines of lines of text. -/
def parseLines : List (List Char) → Except Refusal (List TraceLine)
  | [] => .ok []
  | l :: rest =>
    match parseLine l, parseLines rest with
    | .ok none, r => r
    | .ok (some t), .ok ts => .ok (t :: ts)
    | .error e, _ => .error e
    | _, .error e => .error e

/-- The trace lines of a text. -/
def parseTrace (text : List Char) : Except Refusal (List TraceLine) := parseLines (linesFrom text [])

/-! ### Running a trace -/

/-- The SIW with nothing asserted, 0x7 (30_encoding.md R50). -/
def siwIdle : Siw := 0x7#4

/-- The SIW of `STEP X`, 0xF (30_encoding.md R63). -/
def siwFlap : Siw := 0xF#4

/-- The operations of a line (30_encoding.md R62, R63). -/
def TraceLine.expand : TraceLine → List Instr
  | .reset => [.reset]
  | .step siw => [.step siw]
  | .idle n => List.replicate n (.step siwIdle)
  | .hold siw n => List.replicate n (.step siw)
  | .flap => [.step siwFlap]

/-- The operations of a trace. -/
def expandTrace (lines : List TraceLine) : List Instr := lines.flatMap TraceLine.expand

/-- What the environment observes of one operation (43_step.md R140). -/
structure Observation where
  /-- Its action list, in order. -/
  acts : List Action
  /-- `CMD` after it. -/
  cmd : CmdWord
  /-- `LDR` after it. -/
  ldr : F32
deriving DecidableEq, Repr

/-- The observation of the operation that led to a state. -/
def State.observe (s : State) : Observation := ⟨s.acts, s.cmd, s.ldr⟩

/-- What the environment observes of a run (43_step.md R140), and the state it ends in, which R140 lets a model expose. -/
structure Run where
  /-- Each operation's observation, in order. -/
  observed : List Observation
  /-- The machine after the last operation. -/
  final : State
deriving DecidableEq, Repr

/-- Present each operation in turn and run it. -/
def runOps : List Instr → State → Host.Outcome Run Fault Refusal
  | [], s => .next ⟨[], s⟩
  | i :: rest, s =>
    match step (s.presentFirst (encode i)) with
    | .next t =>
      match runOps rest t with
      | .next r => .next ⟨t.observe :: r.observed, r.final⟩
      | .fault e => .fault e
      | .refused e => .refused e
    | .fault e => .fault e
    | .refused e => .refused e

/-- Run a trace. With no start state given, its first operation must be `RESET` (30_encoding.md R64), and then the registers
it starts from do not matter; a start state that is given must be in the ranges of 10_state.md R24. -/
def runTrace (p : Params) (start : Option State) (lines : List TraceLine) : Host.Outcome Run Fault Refusal :=
  if lines.all TraceLine.wellFormed then
    match start with
    | some s => if s.inRange then runOps (expandTrace lines) s else .refused .startStateUnreachable
    | none =>
      match lines with
      | .reset :: _ => runOps (expandTrace lines) { State.reset with params := p }
      | _ => .refused .traceWithoutReset
  else .refused .badTraceLine

/-! ### Checking an emission trace -/

/-- Why an emitted word is ill-formed, if it is (30_encoding.md R59). -/
def checkWord (w : CmdWord) : Option Refusal :=
  match decode (.cmd w) with
  | .error why => some (.badWord why)
  | .ok i => if i = .cmdNone then some .noneEmitted else none

/-- The first ill-formed word's refusal, if there is one. -/
def checkEmissions : List CmdWord → Option Refusal
  | [] => none
  | w :: rest =>
    match checkWord w with
    | some r => some r
    | none => checkEmissions rest

end Sys2Proof.Machine
end

