-- ==== Sys2Proof/Safety.lean ====
section
/-! DEFINITION. What counts as a safe state, in the terms the claims use. -/

namespace Sys2Proof.Machine

/-- The presented word is one the environment can apply: a STEP or a RESET (30_encoding.md R60, R62). -/
def isEnvironmentWord (r : RawWord) : Bool :=
  match decode r with
  | .ok (.step _) => true
  | .ok .reset => true
  | _ => false

/-- Everything at the port is the environment's to apply. -/
def State.environmentOnly (s : State) : Bool := s.port.all isEnvironmentWord

/-- A state of a run that the environment drives: an admitted configuration, registers in the ranges of 10_state.md R24, and
only STEP and RESET at the port. -/
structure State.Driven (s : State) : Prop where
  legal : s.params.legal = true
  inRange : s.inRange = true
  environmentOnly : s.environmentOnly = true

/-- `CMD` holds a word of 30_encoding.md R56: RSVD 0, a KIND that is not reserved, TARGET 0 where it must be. -/
def State.cmdWellFormed (s : State) : Bool :=
  match decodeCmd s.cmd with
  | .ok _ => true
  | .error _ => false

/-- The local drive level agrees with the sequencer: neutral when the countdown has run out, the direction's duty while it
has not (41_sequencer.md R97, 42_command_mux.md R117). -/
def State.driveAgrees (s : State) : Bool := s.ldr == if s.active then s.params.duty s.dir else F32.neutral

/-- A command word the block never emits and a checker refuses (30_encoding.md R59). -/
def illFormedWord (w : CmdWord) : Prop :=
  cmdKind w = 0x0#4 ∨ 5 ≤ (cmdKind w).toNat ∨ cmdRsvd w ≠ 0#4 ∨ (cmdKind w = 0x1#4 ∧ cmdTarget w ≠ 0#8)

/-- The emissions that are the sequencer's: the local words and the bus duty (41_sequencer.md R97, last column). -/
def sequencerEmits (acts : List Action) : List CmdWord :=
  (emits acts).filter (fun w => cmdKind w == 0x1#4 || cmdKind w == 0x2#4)

/-- Two machines with the same seven registers (10_state.md R20) and the same configuration. -/
structure SameRegisters (s t : State) : Prop where
  cntP : s.cntP = t.cntP
  cntA : s.cntA = t.cntA
  cntB : s.cntB = t.cntB
  dir : s.dir = t.dir
  cd : s.cd = t.cd
  cmd : s.cmd = t.cmd
  ldr : s.ldr = t.ldr
  params : s.params = t.params

/-- No step of the run toggles: `fire_P` is 0 in each. -/
def quietRun : List Siw → State → Prop
  | [], _ => True
  | siw :: rest, s => (stepWires siw s).fire .p = false ∧ quietRun rest (stepState siw s)

/-- The source's signed countdown over one step: loaded with `ARM_MS` on a toggle, then lowered by `PERIOD_MS`
(41_sequencer.md R96). -/
def signedTick (p : Params) (fireP : Bool) (c : Int) : Int := (if fireP then (p.armMs : Int) else c) - p.periodMs

/-- 1 for true, 0 for false. -/
def bit (b : Bool) : Nat := if b then 1 else 0

end Sys2Proof.Machine
end

