-- ==== Sys2Proof/Certificates/Slice0/Obligations.lean ====
section
/-! DEFINITION. The statements for the provers. -/

open Sys2Proof Sys2Proof.Machine

/-! ### Encoding -/

/-- Words written out from 30_encoding.md R50, R55, R56, R60 name the operations those tables give them. The operand codes of
the two MUX words are the model's own (log 11). -/
def Obligations.DecodeReadsSpecWords : Prop :=
  decode (.uop 0b0000011000000000#16) = .ok (.step 0b0110#4) ∧
  decode (.uop 0b0000000000000100#16) = .ok .reset ∧
  decode (.uop 0b0000000000001001#16) = .ok .dbcUpdateA ∧
  decode (.uop 0b0000000000001110#16) = .ok .dbcCmpB ∧
  decode (.uop 0b0000000000010000#16) = .ok .dbcClearP ∧
  decode (.uop 0b0000000000100000#16) = .ok .seqTick ∧
  decode (.uop 0b0000001100101000#16) = .ok (.muxEmit .brk) ∧
  decode (.uop 0b0000000100101100#16) = .ok (.muxWait .period) ∧
  decode (.cmd 0x20633F000000#48) = .ok (.cmdBusDuty 0x63#8 0x3F000000#32)

/-- Decoding an encoded operation gives it back, whatever its operands. -/
def Obligations.DecodeEncodeRoundTrip : Prop := ∀ i : Instr, decode (encode i) = .ok i

/-- A word that names an operation is the one word that presents it: no bit of an accepted word is ignored. -/
def Obligations.EncodeDecodeRoundTrip : Prop := ∀ (r : RawWord) (i : Instr), decode r = .ok i → encode i = r

/-- A UOP7 word with a reserved OPID, with INST 0b11 in a DBC operation, or with INST not 0b00 outside them, is refused. -/
def Obligations.ReservedUopWordsAreRefused : Prop :=
  ∀ (s : State) (b : BitVec 16) (rest : List RawWord), s.params.legal = true → s.port = .uop b :: rest →
    (0x0C ≤ (uopOpid b).toNat ∨ uopInst b = 0b11#2 ∨
      (uopInst b ≠ 0b00#2 ∧ uopOpid b ≠ 0x02#5 ∧ uopOpid b ≠ 0x03#5 ∧ uopOpid b ≠ 0x04#5)) →
    ∃ why, step s = .refused (.badWord why)

/-- No step emits an ill-formed word, and the checker refuses an emission trace exactly when it holds one (30_encoding.md R59).
That the machine refuses such a word when it is presented is the model's reading of a presented command word (log 1, log 9,
log 10). -/
def Obligations.IllFormedWordsNeverEmittedAndRefused : Prop :=
  (∀ (siw : Siw) (s : State), ∃ t, exec (.step siw) s = .next t ∧ ∀ w ∈ emits t.acts, ¬ illFormedWord w) ∧
  (∀ ws : List CmdWord, (∃ r, checkEmissions ws = some r) ↔ ∃ w ∈ ws, illFormedWord w) ∧
  (∀ (s : State) (w : CmdWord) (rest : List RawWord), s.params.legal = true → s.port = .cmd w :: rest →
    illFormedWord w → ∃ r, step s = .refused r)

/-- Every word a step emits, in an admitted configuration, decodes to a command with a TARGET of 30_encoding.md R57 and a VALUE
of R58; a duty is within `[-1, 1]` and a current is finite. -/
def Obligations.EmittedWordsAreAdmittedCommands : Prop :=
  ∀ (siw : Siw) (s : State), s.params.legal = true → ∃ t, exec (.step siw) s = .next t ∧
    ∀ w ∈ emits t.acts,
      (∃ i, decode (.cmd w) = .ok i ∧ i.WellFormed ∧ i ≠ .cmdNone) ∧
      (isLocalDuty w = true → cmdTarget w = 0#8) ∧
      (isBusKind w = true → (cmdTarget w).toNat = s.params.targetId) ∧
      (cmdValue w = 0x00000000#32 ∨ cmdValue w = s.params.maxDutyWord ∨
        cmdValue w = s.params.maxDutyWord ^^^ 0x80000000#32 ∨ cmdValue w = s.params.curA ∨ cmdValue w = s.params.curB)

/-- All 16 SIW values are legal: each, presented as a STEP, runs, and its bits mean what 30_encoding.md R50 says. -/
def Obligations.EverySiwIsLegal : Prop :=
  ∀ (siw : Siw) (s : State), s.params.legal = true →
    ∃ t, step (s.presentFirst (.uop (0#4 ++ siw ++ 0b00000000#8))) = .next t ∧
      t.wires.sP = !siw.getLsbD 0 ∧ t.wires.sA = !siw.getLsbD 1 ∧ t.wires.sB = !siw.getLsbD 2 ∧
      t.wires.ext = siw.getLsbD 3

/-! ### The machine's step, reset, configuration -/

/-- The oldest presented word, when it decodes, is the operation the step runs, on the state with the rest of the port
(the port is the model's own, log 1). -/
def Obligations.StepRunsTheDecodedOperation : Prop :=
  ∀ (s : State) (r : RawWord) (rest : List RawWord) (i : Instr), s.params.legal = true → s.port = r :: rest →
    decode r = .ok i → step s = exec i { s with port := rest }

/-- With nothing presented the block holds its state. -/
def Obligations.StepHoldsWithNothingPresented : Prop :=
  ∀ s : State, s.params.legal = true → s.port = [] → step s = .next s

/-- 00_scope.md R9: the machine refuses exactly the configurations that break a constraint; a configured MAX_DUTY is checked,
and the open one is within the constraint (log 4). R9(g) holds by the type of SETTLE_MS. -/
def Obligations.ConfigurationRefusedExactlyWhenBroken : Prop :=
  ∀ s : State,
    (step s = .refused .badConfiguration ↔
      ¬ ((s.params.nP + 1 ≤ 2 ^ s.params.cntW - 1 ∧ s.params.nA + 1 ≤ 2 ^ s.params.cntW - 1 ∧
            s.params.nB + 1 ≤ 2 ^ s.params.cntW - 1) ∧
          (0 < s.params.armMs ∧ s.params.armMs < 2 ^ s.params.cdW) ∧
          (0 < s.params.periodMs ∧ s.params.periodMs < 2 ^ s.params.cdW) ∧
          (0 ≤ s.params.targetId ∧ s.params.targetId ≤ 255) ∧
          (s.params.maxDutyWord.isFinite = true ∧ 0 < s.params.maxDutyWord.scaled ∧
            s.params.maxDutyWord.scaled ≤ 2 ^ 149) ∧
          (s.params.curA.isFinite = true ∧ s.params.curB.isFinite = true) ∧
          0 ≤ s.params.settleMs))

/-- No step of the machine faults; and a STEP or a RESET presented in an admitted configuration always completes. -/
def Obligations.StepNeverFaultsAndAlwaysCompletes : Prop :=
  (∀ (s : State) (f : Fault), step s ≠ .fault f) ∧
  (∀ (s : State) (siw : Siw), s.params.legal = true → ∃ t, step (s.presentFirst (encode (.step siw))) = .next t) ∧
  (∀ s : State, s.params.legal = true → ∃ t, step (s.presentFirst (encode .reset)) = .next t)

/-- The registers after reset hold the values of 10_state.md R20, in the default configuration of 00_scope.md R8. The empty
action list, port and wires are the model's (log 1, log 7, log 12). -/
def Obligations.ResetStateHoldsSpecValues : Prop :=
  State.reset.cntP = 0 ∧ State.reset.cntA = 0 ∧ State.reset.cntB = 0 ∧ State.reset.dir = false ∧ State.reset.cd = 0 ∧
  State.reset.cmd = 0x000000000000#48 ∧ State.reset.ldr = 0x00000000#32 ∧ State.reset.params = Params.default ∧
  Params.default.nP = 10 ∧ Params.default.nA = 5 ∧ Params.default.nB = 5 ∧ Params.default.armMs = 8000 ∧
  Params.default.periodMs = 10 ∧ Params.default.settleMs = 500 ∧ Params.default.targetId = 99 ∧
  Params.default.curA = 0x3F800000#32 ∧ Params.default.curB = 0x3F800000#32 ∧ Params.default.cntW = 8 ∧
  Params.default.cdW = 14 ∧ Params.default.dirReset = false ∧ State.reset.acts = [] ∧ State.reset.port = []

/-- 70_reset_and_hazards.md R170: RESET writes every register, emits nothing, leaves the parameters, is idempotent; and the
first `STEP -` after it emits the neutral and the period wait. -/
def Obligations.ResetWritesEveryRegister : Prop :=
  (∀ s : State, exec .reset s = .next { s with
      cntP := 0, cntA := 0, cntB := 0, dir := s.params.dirReset, cd := 0, cmd := 0x000000000000#48,
      ldr := 0x00000000#32, acts := [] }) ∧
  (∀ s t : State, exec .reset s = .next t → exec .reset t = .next t) ∧
  (∀ s t : State, exec .reset s = .next t →
    ∃ u, exec (.step 0x7#4) t = .next u ∧ u.acts = [.emit 0x100000000000#48, .wait s.params.periodMs])

/-- 10_state.md R21: no operation changes a parameter; the two compile-time thresholds of the
source are `N_P` and the shared aux value. -/
def Obligations.NoOperationChangesParameters : Prop :=
  (∀ (i : Instr) (s t : State), exec i s = .next t → t.params = s.params) ∧
  (∀ s t : State, step s = .next t → t.params = s.params) ∧
  Params.default.nA = Params.default.nB

/-! ### Debounce bank -/

/-- 40_debounce.md R70: DBC_UPDATE drives `u_i` and nothing else; the corner cases; and the bank never reaches the top. -/
def Obligations.UpdateDrivesTheUpdatedCount : Prop :=
  (∀ s : State, exec .dbcUpdateP s = .next { s with wires := { s.wires with
      uP := if s.wires.sP then (if s.cntP = 2 ^ s.params.cntW - 1 then s.cntP else s.cntP + 1)
            else (if s.cntP > 0 then s.cntP - 1 else 0) } }) ∧
  (∀ s : State, exec .dbcUpdateA s = .next { s with wires := { s.wires with
      uA := if s.wires.sA then (if s.cntA = 2 ^ s.params.cntW - 1 then s.cntA else s.cntA + 1)
            else (if s.cntA > 0 then s.cntA - 1 else 0) } }) ∧
  (∀ s : State, exec .dbcUpdateB s = .next { s with wires := { s.wires with
      uB := if s.wires.sB then (if s.cntB = 2 ^ s.params.cntW - 1 then s.cntB else s.cntB + 1)
            else (if s.cntB > 0 then s.cntB - 1 else 0) } }) ∧
  (∀ (s : State) (i : DbcInst), s.params.legal = true → s.inRange = true → s.cnt i < 2 ^ s.params.cntW - 1)

/-- 40_debounce.md R71, of the update in a step: it moves a count by at most one, up only on a 1 and down only on a 0, and a 1
gives strictly more than a 0; the clear, apart from it, drops the counter to 0. -/
def Obligations.UpdateInvariant : Prop :=
  ∀ (siw siw' : Siw) (s : State) (i : DbcInst), s.params.legal = true →
    ∃ t t', exec (.step siw) s = .next t ∧ exec (.step siw') s = .next t' ∧
      t.wires.u i ≤ s.cnt i + 1 ∧ s.cnt i ≤ t.wires.u i + 1 ∧
      (s.cnt i < t.wires.u i → t.wires.s i = true) ∧
      (t.wires.u i < s.cnt i → t.wires.s i = false) ∧
      (t.wires.s i = true → t'.wires.s i = false → t'.wires.u i < t.wires.u i) ∧
      (t.wires.fire i = true → t.cnt i = 0)

/-- 40_debounce.md R72: DBC_CMP drives `hit_i`, a strict compare of the updated value; it writes no counter. -/
def Obligations.CompareDrivesTheHit : Prop :=
  (∀ s : State, exec .dbcCmpP s = .next { s with wires := { s.wires with hitP := decide (s.wires.uP > s.params.nP) } }) ∧
  (∀ s : State, exec .dbcCmpA s = .next { s with wires := { s.wires with hitA := decide (s.wires.uA > s.params.nA) } }) ∧
  (∀ s : State, exec .dbcCmpB s = .next { s with wires := { s.wires with hitB := decide (s.wires.uB > s.params.nB) } })

/-- 40_debounce.md R73: DBC_CLEAR writes `CNT_i` and nothing else, EXT clears P too, and in a step only a clear moves a counter
by more than 1. -/
def Obligations.ClearWritesTheCounter : Prop :=
  (∀ s : State, exec .dbcClearP s = .next { s with
      cntP := if s.wires.hitP = true ∨ s.wires.ext = true then 0 else s.wires.uP }) ∧
  (∀ s : State, exec .dbcClearA s = .next { s with cntA := if s.wires.hitA = true then 0 else s.wires.uA }) ∧
  (∀ s : State, exec .dbcClearB s = .next { s with cntB := if s.wires.hitB = true then 0 else s.wires.uB }) ∧
  (∀ (siw : Siw) (s : State) (i : DbcInst), ∃ t, exec (.step siw) s = .next t ∧
    ((s.cnt i + 1 < t.cnt i ∨ t.cnt i + 1 < s.cnt i) → t.wires.fire i = true ∧ t.cnt i = 0))

/-- 10_state.md R24: at the end of a step each counter is in `0 .. N_i`; `N_i + 1` exists only as `u_i` inside a step, where it
is cleared. -/
def Obligations.CountersEndInRange : Prop :=
  ∀ (siw : Siw) (s : State) (i : DbcInst), s.cnt i ≤ threshold s.params i →
    ∃ t, exec (.step siw) s = .next t ∧ t.cnt i ≤ threshold s.params i ∧ t.wires.u i ≤ threshold s.params i + 1 ∧
      (t.wires.u i = threshold s.params i + 1 → t.cnt i = 0)

/-- 40_debounce.md R76: an increment at the top holds, and in the bank it is never reached: the update is the source's
unbounded one. -/
def Obligations.SaturationIsNeverReached : Prop :=
  (∀ (siw : Siw) (s : State) (i : DbcInst), s.cnt i = 2 ^ s.params.cntW - 1 → sample siw i = true →
    ∃ t, exec (.step siw) s = .next t ∧ t.wires.u i = 2 ^ s.params.cntW - 1) ∧
  (∀ (siw : Siw) (s : State) (i : DbcInst), s.params.legal = true → s.inRange = true →
    ∃ t, exec (.step siw) s = .next t ∧
      t.wires.u i = (if sample siw i then s.cnt i + 1 else s.cnt i - 1) ∧
      t.wires.u i ≤ threshold s.params i + 1 ∧ threshold s.params i + 1 ≤ 2 ^ s.params.cntW - 1 ∧
      t.cnt i ≤ threshold s.params i)

/-- 40_debounce.md R77: a button held from count 0, with no EXT, fires in exactly the steps that are multiples of `N_i + 1`, and
its counter is then 0 again; each such fire adds a settle wait. -/
def Obligations.HeldButtonFiresEveryThresholdPlusOne : Prop :=
  ∀ (s : State) (i : DbcInst) (siws : List Siw), s.params.legal = true → s.cnt i = 0 → siws ≠ [] →
    (∀ siw ∈ siws, sample siw i = true ∧ extBit siw = false) →
    ∃ t, execAll (siws.map .step) s = .next t ∧
      t.cnt i = siws.length % (threshold s.params i + 1) ∧
      (t.wires.fire i = true ↔ siws.length % (threshold s.params i + 1) = 0) ∧
      (t.wires.fire i = true → s.params.settleMs ∈ waits t.acts)

/-- 40_debounce.md R79: a counter and its comparator depend on that counter and that pin only (and, for the clear of P, on
EXT). -/
def Obligations.DebounceCircuitsDoNotInteract : Prop :=
  ∀ (siw siw' : Siw) (s s' : State) (i : DbcInst), s.params = s'.params → s.cnt i = s'.cnt i →
    sample siw i = sample siw' i → (i = .p → extBit siw = extBit siw') →
    ∃ t t', exec (.step siw) s = .next t ∧ exec (.step siw') s' = .next t' ∧
      t.wires.u i = t'.wires.u i ∧ t.wires.hit i = t'.wires.hit i ∧ t.cnt i = t'.cnt i

/-- 40_debounce.md R75: the samples of a step are the inverted pin bits of its one SIW. -/
def Obligations.SamplesAreInvertedPins : Prop :=
  (∀ (siw : Siw) (s : State), ∃ t, exec (.step siw) s = .next t ∧
    t.wires.sP = !siw.getLsbD 0 ∧ t.wires.sA = !siw.getLsbD 1 ∧ t.wires.sB = !siw.getLsbD 2) ∧
  (∀ s : State, ∃ t, exec (.step 0x6#4) s = .next t ∧ t.wires.sP = true ∧ t.wires.sA = false ∧ t.wires.sB = false)

/-! ### Sequencer -/

/-- 41_sequencer.md R90: SEQ_TOGGLE flips DIR on `fire_P`, whatever CD, once even when `hit_P` and EXT are both 1, and drives
`dir1`; in a step a toggle flips DIR once and re-arms, whatever CD was. -/
def Obligations.ToggleFlipsTheDirection : Prop :=
  (∀ s : State,
    ((s.wires.hitP = true ∨ s.wires.ext = true) →
      exec .seqToggle s = .next { s with dir := !s.dir, wires := { s.wires with dir1 := !s.dir } }) ∧
    (¬ (s.wires.hitP = true ∨ s.wires.ext = true) →
      exec .seqToggle s = .next { s with wires := { s.wires with dir1 := s.dir } })) ∧
  (∀ (siw : Siw) (s : State), ∃ t, exec (.step siw) s = .next t ∧
    (t.wires.fire .p = true → t.dir = (!s.dir) ∧ t.wires.cd1 = s.params.armMs) ∧
    (t.wires.fire .p = false → t.dir = s.dir))

/-- 41_sequencer.md R92: the duty wire is `-MAX_DUTY` or `+MAX_DUTY`, which are exactly the linear interpolation's values and
of opposite signs; the example with MAX_DUTY = 0.5. Values are in units of 2^-149. -/
def Obligations.DriveDutyIsTheInterpolation : Prop :=
  (∀ s : State, exec .seqDriveDuty s = .next { s with wires := { s.wires with
      duty := if s.wires.dir1 then s.params.maxDutyWord else s.params.maxDutyWord ^^^ 0x80000000#32 } }) ∧
  (∀ (s t : State), s.params.legal = true → exec .seqDriveDuty s = .next t →
    t.wires.duty.isFinite = true ∧
    t.wires.duty.scaled = -s.params.maxDutyWord.scaled +
      (bit s.wires.dir1 : Int) * (s.params.maxDutyWord.scaled - -s.params.maxDutyWord.scaled) ∧
    (s.wires.dir1 = true → 0 < t.wires.duty.scaled) ∧ (s.wires.dir1 = false → t.wires.duty.scaled < 0)) ∧
  (∀ p : Params, p.maxDuty = some 0x3F000000#32 → p.duty true = 0x3F000000#32 ∧ p.duty false = 0xBF000000#32)

/-- 41_sequencer.md R93: SEQ_ARM drives `cd1`: `ARM_MS` on `fire_P`, whatever CD held, else CD. -/
def Obligations.ArmLoadsTheCountdown : Prop :=
  ∀ s : State, exec .seqArm s = .next { s with wires := { s.wires with
    cd1 := if s.wires.hitP = true ∨ s.wires.ext = true then s.params.armMs else s.cd } }

/-- 41_sequencer.md R94: SEQ_TICK, run by itself as log 8 says, lowers `cd1` by `PERIOD_MS`, not below 0, into CD and `cd2`, and
drives `neutral`; in a step that toggles, CD ends
at `ARM_MS - PERIOD_MS`, the settle waits do not count, and `neutral` follows. -/
def Obligations.TickLowersTheCountdown : Prop :=
  (∀ s : State, exec .seqTick s = .next { s with
      cd := if s.wires.cd1 > s.params.periodMs then s.wires.cd1 - s.params.periodMs else 0,
      wires := { s.wires with
        cd2 := if s.wires.cd1 > s.params.periodMs then s.wires.cd1 - s.params.periodMs else 0,
        neutral := decide (s.wires.cd1 ≤ s.params.periodMs) } }) ∧
  (∀ (siw : Siw) (s : State), ∃ t, exec (.step siw) s = .next t ∧
    t.cd = (if t.wires.fire .p then s.params.armMs else s.cd) - s.params.periodMs ∧
    t.wires.cd2 = t.cd ∧ t.wires.neutral = decide (t.cd = 0))

/-- 41_sequencer.md R95: SEQ_NEUTRAL drives `neutral`, and emits the +0.0 local word exactly when `cd2` is 0. That the emission
is latched into CMD and LDR at once is the model's reading of a slot run by itself (log 8). -/
def Obligations.NeutralEmitsWhileRunOut : Prop :=
  ∀ s : State,
    (s.wires.cd2 = 0 → exec .seqNeutral s = .next { s with
      wires := { s.wires with neutral := true }, acts := s.acts ++ [.emit 0x100000000000#48],
      cmd := 0x100000000000#48, ldr := 0x00000000#32 }) ∧
    (s.wires.cd2 ≠ 0 → exec .seqNeutral s = .next { s with wires := { s.wires with neutral := false } })

/-- 41_sequencer.md R96: the saturated countdown is the source's signed one cut off at 0, step by step, and the neutral is
emitted exactly when the signed count is at or below 0. -/
def Obligations.SaturatedCountdownFollowsSigned : Prop :=
  ∀ (siw : Siw) (s : State) (c : Int), s.params.legal = true → s.cd = c.toNat →
    ∃ t, exec (.step siw) s = .next t ∧
      t.cd = (signedTick s.params (t.wires.fire .p) c).toNat ∧
      (t.wires.neutral = true ↔ signedTick s.params (t.wires.fire .p) c ≤ 0) ∧
      (0x100000000000#48 ∈ emits t.acts ↔ signedTick s.params (t.wires.fire .p) c ≤ 0)

/-- 41_sequencer.md R97: the FSM table, with its last paragraph for `ARM_MS <= PERIOD_MS`. -/
def Obligations.SequencerTransitions : Prop :=
  ∀ (siw : Siw) (s : State), ∃ t, exec (.step siw) s = .next t ∧
    (s.active = false → t.wires.fire .p = false →
      t.dir = s.dir ∧ t.active = false ∧ sequencerEmits t.acts = [0x100000000000#48]) ∧
    (s.active = true → t.wires.fire .p = false → s.params.periodMs < s.cd →
      t.dir = s.dir ∧ t.active = true ∧ sequencerEmits t.acts = []) ∧
    (s.active = true → t.wires.fire .p = false → s.cd ≤ s.params.periodMs →
      t.dir = s.dir ∧ t.active = false ∧ sequencerEmits t.acts = [0x100000000000#48]) ∧
    (t.wires.fire .p = true → s.params.periodMs < s.params.armMs →
      t.dir = (!s.dir) ∧ t.active = true ∧
      sequencerEmits t.acts = [cmdAssemble 0x1#4 0#8 (s.params.duty (!s.dir)),
        cmdAssemble 0x2#4 s.params.targetField (s.params.duty (!s.dir))]) ∧
    (t.wires.fire .p = true → s.params.armMs ≤ s.params.periodMs →
      t.dir = (!s.dir) ∧ t.active = false ∧
      sequencerEmits t.acts = [cmdAssemble 0x1#4 0#8 (s.params.duty (!s.dir)),
        cmdAssemble 0x2#4 s.params.targetField (s.params.duty (!s.dir)), 0x100000000000#48])

/-- 41_sequencer.md R98: after a toggle and `k` steps without one, `CD = max(0, ARM_MS - PERIOD_MS*(k+1))`, and the neutral is
emitted exactly from `k = ceil(ARM_MS / PERIOD_MS) - 1` on, which is 799 with the defaults. -/
def Obligations.DriveLastsArmOverPeriodTicks : Prop :=
  (∀ (s : State) (first : Siw) (siws : List Siw), s.params.legal = true → (stepWires first s).fire .p = true →
    quietRun siws (stepState first s) →
    ∃ t, execAll (.step first :: siws.map .step) s = .next t ∧
      t.cd = s.params.armMs - s.params.periodMs * (siws.length + 1) ∧
      (t.wires.neutral = true ↔
        (s.params.armMs + s.params.periodMs - 1) / s.params.periodMs - 1 ≤ siws.length) ∧
      (0x100000000000#48 ∈ emits t.acts ↔ t.wires.neutral = true)) ∧
  (Params.default.armMs + Params.default.periodMs - 1) / Params.default.periodMs - 1 = 799

/-- 41_sequencer.md R99: the bus words of a step are those of its fires, whether or not the countdown runs out in it. -/
def Obligations.CountdownExpirySendsNoBusCommand : Prop :=
  ∀ (siw : Siw) (s : State), ∃ t, exec (.step siw) s = .next t ∧
    (emits t.acts).filter isBusKind =
      (if t.wires.fire .p then [cmdAssemble 0x2#4 s.params.targetField (s.params.duty t.dir)] else []) ++
      (if t.wires.fire .a then [cmdAssemble 0x3#4 s.params.targetField s.params.curA] else []) ++
      (if t.wires.fire .b then [cmdAssemble 0x4#4 s.params.targetField s.params.curB] else [])

/-! ### Multiplexer -/

/-- 42_command_mux.md R115: MUX_EMIT appends one `Emit` of the selected source's word. The fields are those of R110; that the
word is latched into CMD and LDR at once is the model's reading of a slot run by itself (log 8). -/
def Obligations.MuxEmitPresentsTheSourceWord : Prop :=
  ∀ s : State,
    (exec (.muxEmit .tdl) s = .next { s with
      acts := s.acts ++ [.emit (0x1#4 ++ 0#4 ++ 0#8 ++ s.params.duty s.wires.dir1)],
      cmd := 0x1#4 ++ 0#4 ++ 0#8 ++ s.params.duty s.wires.dir1, ldr := s.params.duty s.wires.dir1 }) ∧
    (exec (.muxEmit .tdb) s = .next { s with
      acts := s.acts ++ [.emit (0x2#4 ++ 0#4 ++ BitVec.ofNat 8 s.params.targetId ++ s.params.duty s.wires.dir1)],
      cmd := 0x2#4 ++ 0#4 ++ BitVec.ofNat 8 s.params.targetId ++ s.params.duty s.wires.dir1 }) ∧
    (exec (.muxEmit .cur) s = .next { s with
      acts := s.acts ++ [.emit (0x3#4 ++ 0#4 ++ BitVec.ofNat 8 s.params.targetId ++ s.params.curA)],
      cmd := 0x3#4 ++ 0#4 ++ BitVec.ofNat 8 s.params.targetId ++ s.params.curA }) ∧
    (exec (.muxEmit .brk) s = .next { s with
      acts := s.acts ++ [.emit (0x4#4 ++ 0#4 ++ BitVec.ofNat 8 s.params.targetId ++ s.params.curB)],
      cmd := 0x4#4 ++ 0#4 ++ BitVec.ofNat 8 s.params.targetId ++ s.params.curB }) ∧
    (exec (.muxEmit .ntl) s = .next { s with
      acts := s.acts ++ [.emit 0x100000000000#48], cmd := 0x100000000000#48, ldr := 0x00000000#32 })

/-- 42_command_mux.md R111: word assembly, and the words of the five sources with the defaults and any configured `MAX_DUTY`. -/
def Obligations.SourceWordsMatchTheTable : Prop :=
  (∀ (k : BitVec 4) (t : BitVec 8) (v : F32), cmdAssemble k t v = k ++ 0b0000#4 ++ t ++ v) ∧
  (∀ (M : F32) (p : Params), p = { Params.default with maxDuty := some M } →
    sourceWord p true .tdl = 0x100000000000#48 ||| M.setWidth 48 ∧
    sourceWord p false .tdl = 0x100000000000#48 ||| (M ^^^ 0x80000000#32).setWidth 48 ∧
    sourceWord p true .tdb = 0x206300000000#48 ||| M.setWidth 48 ∧
    sourceWord p false .tdb = 0x206300000000#48 ||| (M ^^^ 0x80000000#32).setWidth 48 ∧
    (∀ d, sourceWord p d .cur = 0x30633F800000#48 ∧ sourceWord p d .brk = 0x40633F800000#48 ∧
      sourceWord p d .ntl = 0x100000000000#48))

/-- 42_command_mux.md R118: MUX_WAIT appends one `Wait` and changes nothing else; the waits of a step add up to
`SETTLE_MS * (fire_P + fire_A + fire_B) + PERIOD_MS`, and the period wait is the last action. -/
def Obligations.WaitsOfAStepAddUp : Prop :=
  (∀ s : State, exec (.muxWait .settle) s = .next { s with acts := s.acts ++ [.wait s.params.settleMs] }) ∧
  (∀ s : State, exec (.muxWait .period) s = .next { s with acts := s.acts ++ [.wait s.params.periodMs] }) ∧
  (∀ (siw : Siw) (s : State), ∃ t, exec (.step siw) s = .next t ∧
    (waits t.acts).sum = s.params.settleMs *
      (bit (t.wires.fire .p) + bit (t.wires.fire .a) + bit (t.wires.fire .b)) + s.params.periodMs ∧
    t.acts.getLast? = some (.wait s.params.periodMs))

/-- 42_command_mux.md R116: CMD holds the last word the step emits, else its old value; with `ARM_MS > PERIOD_MS` a step emits
nothing exactly when nothing fires and CD is above `PERIOD_MS`; a neutral comes last. -/
def Obligations.CmdHoldsTheLastEmittedWord : Prop :=
  ∀ (siw : Siw) (s : State), ∃ t, exec (.step siw) s = .next t ∧
    t.cmd = ((emits t.acts).getLast?).getD s.cmd ∧
    (s.params.periodMs < s.params.armMs →
      (emits t.acts = [] ↔ t.wires.fire .p = false ∧ t.wires.fire .a = false ∧ t.wires.fire .b = false ∧
        s.active = true ∧ s.params.periodMs < s.cd)) ∧
    (t.wires.neutral = true → t.cmd = 0x100000000000#48)

/-- 42_command_mux.md R117: LDR holds the VALUE of the last LOCAL_DUTY word the step emits, else its old value; after the
neutral it is +0.0, and stays so until the next toggle. -/
def Obligations.LdrHoldsTheLastLocalDuty : Prop :=
  ∀ (siw : Siw) (s : State), ∃ t, exec (.step siw) s = .next t ∧
    t.ldr = ((((emits t.acts).filter (fun w => cmdKind w == 0x1#4)).map cmdValue).getLast?).getD s.ldr ∧
    (t.wires.neutral = true → t.ldr = 0x00000000#32) ∧
    (s.ldr = 0x00000000#32 → t.wires.fire .p = false → t.ldr = 0x00000000#32)

/-- 42_command_mux.md R119: at most five emissions and four waits in a step; with `ARM_MS > PERIOD_MS` the toggle's and the
neutral's local words never come together, so at most four emissions. -/
def Obligations.ActionsOfAStepAreBounded : Prop :=
  ∀ (siw : Siw) (s : State), ∃ t, exec (.step siw) s = .next t ∧
    (emits t.acts).length ≤ 5 ∧ (waits t.acts).length ≤ 4 ∧
    (s.params.periodMs < s.params.armMs →
      ¬ (t.wires.fire .p = true ∧ t.wires.neutral = true) ∧ (emits t.acts).length ≤ 4)

/-- A command word of KIND 1 to 4 presented as an operation is one emission of that word (the model's reading of a CMD48 row,
log 9): appended to the actions, held in CMD, and for a LOCAL_DUTY word its VALUE in LDR. -/
def Obligations.PresentedCommandIsEmitted : Prop :=
  (∀ (v : F32) (s : State), exec (.cmdLocalDuty v) s = .next { s with
      acts := s.acts ++ [.emit (0x1#4 ++ 0#4 ++ 0#8 ++ v)], cmd := 0x1#4 ++ 0#4 ++ 0#8 ++ v, ldr := v }) ∧
  (∀ (a : BitVec 8) (v : F32) (s : State), exec (.cmdBusDuty a v) s = .next { s with
      acts := s.acts ++ [.emit (0x2#4 ++ 0#4 ++ a ++ v)], cmd := 0x2#4 ++ 0#4 ++ a ++ v }) ∧
  (∀ (a : BitVec 8) (v : F32) (s : State), exec (.cmdBusCurrent a v) s = .next { s with
      acts := s.acts ++ [.emit (0x3#4 ++ 0#4 ++ a ++ v)], cmd := 0x3#4 ++ 0#4 ++ a ++ v }) ∧
  (∀ (a : BitVec 8) (v : F32) (s : State), exec (.cmdBusCurrentBrake a v) s = .next { s with
      acts := s.acts ++ [.emit (0x4#4 ++ 0#4 ++ a ++ v)], cmd := 0x4#4 ++ 0#4 ++ a ++ v })

/-- No step emits a word of KIND NONE (30_encoding.md R59, 42_command_mux.md R124); and running the CMD.NONE row of the table is a
refusal, which is the model's reading of R59 (log 10). -/
def Obligations.NoneWordIsRefused : Prop :=
  (∀ (siw : Siw) (s : State), ∃ t, exec (.step siw) s = .next t ∧ ∀ w ∈ emits t.acts, cmdKind w ≠ 0x0#4) ∧
  (∀ s : State, exec .cmdNone s = .refused .noneEmitted)

/-- After a RESET, CMD reads KIND NONE exactly as long as no step has run. (42_command_mux.md R124 says the first step emits the
neutral; a first step with EXT emits the toggle's words instead, log 18.) -/
def Obligations.CmdReadsNoneUntilTheFirstStep : Prop :=
  ∀ (s t : State) (siws : List Siw), exec .reset s = .next t →
    ∃ u, execAll (siws.map .step) t = .next u ∧ (cmdKind u.cmd = 0x0#4 ↔ siws = [])

/-! ### The step as a whole -/

/-- 43_step.md R131: the wires, registers and actions of a step, in slot order, from the start-of-step values; and its frame,
parameters and port (log 1, log 3). -/
def Obligations.StepActsInSlotOrder : Prop :=
  ∀ (siw : Siw) (s : State), ∃ t, exec (.step siw) s = .next t ∧
    t.params = s.params ∧ t.port = s.port ∧ t.cd = t.wires.cd2 ∧ t.dir = t.wires.dir1 ∧
    t.wires.sP = !siw.getLsbD 0 ∧ t.wires.sA = !siw.getLsbD 1 ∧ t.wires.sB = !siw.getLsbD 2 ∧
    t.wires.ext = siw.getLsbD 3 ∧
    t.wires.uP = (if siw.getLsbD 0 then s.cntP - 1 else satInc s.params.cntW s.cntP) ∧
    t.wires.uA = (if siw.getLsbD 1 then s.cntA - 1 else satInc s.params.cntW s.cntA) ∧
    t.wires.uB = (if siw.getLsbD 2 then s.cntB - 1 else satInc s.params.cntW s.cntB) ∧
    t.wires.hitP = decide (s.params.nP < t.wires.uP) ∧ t.wires.hitA = decide (s.params.nA < t.wires.uA) ∧
    t.wires.hitB = decide (s.params.nB < t.wires.uB) ∧
    t.cntP = (if t.wires.hitP = true ∨ siw.getLsbD 3 = true then 0 else t.wires.uP) ∧
    t.cntA = (if t.wires.hitA = true then 0 else t.wires.uA) ∧
    t.cntB = (if t.wires.hitB = true then 0 else t.wires.uB) ∧
    t.dir = (if t.wires.hitP = true ∨ siw.getLsbD 3 = true then !s.dir else s.dir) ∧
    t.cd = (if t.wires.hitP = true ∨ siw.getLsbD 3 = true then s.params.armMs else s.cd) - s.params.periodMs ∧
    t.acts =
      (if t.wires.hitP = true ∨ siw.getLsbD 3 = true then
        [.emit (cmdAssemble 0x1#4 0#8 (s.params.duty t.dir)),
          .emit (cmdAssemble 0x2#4 s.params.targetField (s.params.duty t.dir)), .wait s.params.settleMs] else []) ++
      (if t.wires.hitA = true then
        [.emit (cmdAssemble 0x3#4 s.params.targetField s.params.curA), .wait s.params.settleMs] else []) ++
      (if t.wires.hitB = true then
        [.emit (cmdAssemble 0x4#4 s.params.targetField s.params.curB), .wait s.params.settleMs] else []) ++
      (if t.cd = 0 then [.emit 0x100000000000#48] else []) ++ [.wait s.params.periodMs] ∧
    t.cmd = ((emits t.acts).getLast?).getD s.cmd ∧
    t.ldr = ((((emits t.acts).filter (fun w => cmdKind w == 0x1#4)).map cmdValue).getLast?).getD s.ldr

/-- 43_step.md R136: all three slots are evaluated in every step; with every counter at its threshold and every button pressed,
all three fire, in the order of the slots, with a settle wait after each. -/
def Obligations.AllThreeFireInSlotOrder : Prop :=
  ∀ (siw : Siw) (s : State), s.params.legal = true → s.params.periodMs < s.params.armMs →
    s.cntP = s.params.nP → s.cntA = s.params.nA → s.cntB = s.params.nB →
    sample siw .p = true → sample siw .a = true → sample siw .b = true →
    ∃ t, exec (.step siw) s = .next t ∧ t.cntP = 0 ∧ t.cntA = 0 ∧ t.cntB = 0 ∧
      t.acts = [.emit (cmdAssemble 0x1#4 0#8 (s.params.duty (!s.dir))),
        .emit (cmdAssemble 0x2#4 s.params.targetField (s.params.duty (!s.dir))), .wait s.params.settleMs,
        .emit (cmdAssemble 0x3#4 s.params.targetField s.params.curA), .wait s.params.settleMs,
        .emit (cmdAssemble 0x4#4 s.params.targetField s.params.curB), .wait s.params.settleMs,
        .wait s.params.periodMs]

/-- 30_encoding.md R60 and 43_step.md R131: the step is its slots' operations, run one by one in slot order. The operations are
given their meaning one by one, so this says that STEP adds nothing and leaves nothing out. -/
def Obligations.StepIsItsSlotsInOrder : Prop :=
  ∀ (siw : Siw) (s : State), runSlots slotProgram (beginStep siw s) = exec (.step siw) s

/-- 43_step.md R132: `fire_P = hit_P or EXT`; when `hit_P` is 1, EXT makes no difference to any register or action: the two
requests merge into one toggle. -/
def Obligations.CounterAndGateRequestsMerge : Prop :=
  (∀ (siw : Siw) (s : State), ∃ t, exec (.step siw) s = .next t ∧
    (t.wires.fire .p = true ↔ t.wires.hitP = true ∨ siw.getLsbD 3 = true)) ∧
  (∀ (siw siw' : Siw) (s : State), sample siw .p = sample siw' .p → sample siw .a = sample siw' .a →
    sample siw .b = sample siw' .b → (stepWires siw s).hitP = true →
    ∃ t t', exec (.step siw) s = .next t ∧ exec (.step siw') s = .next t' ∧ SameRegisters t t' ∧ t.acts = t'.acts ∧
      t.dir = (!s.dir) ∧ t.cntP = 0)

/-- 43_step.md R137: a toggle's arm is ticked in its own step, and with `ARM_MS > PERIOD_MS` that step has no neutral. -/
def Obligations.ToggleStepTicksItsArm : Prop :=
  ∀ (siw : Siw) (s : State), s.params.legal = true → (stepWires siw s).fire .p = true →
    ∃ t, exec (.step siw) s = .next t ∧ t.cd = s.params.armMs - s.params.periodMs ∧
      (s.params.periodMs < s.params.armMs → t.wires.neutral = false ∧ 0x100000000000#48 ∉ emits t.acts)

/-- Nothing but the seven registers, the parameters and the SIW decides what a step does: what the wires and the action list held
before it makes no difference (10_state.md sections 1 and 5). -/
def Obligations.StepDependsOnRegistersOnly : Prop :=
  ∀ (siw : Siw) (s s' : State), SameRegisters s s' →
    ∃ t t', exec (.step siw) s = .next t ∧ exec (.step siw) s' = .next t' ∧ SameRegisters t t' ∧
      t.acts = t'.acts ∧ t.wires = t'.wires

/-! ### Invariants -/

/-- The state after reset is in range, agrees with its drive level and holds a well-formed CMD. -/
def Obligations.ResetStateMeetsTheInvariants : Prop :=
  State.Driven State.reset ∧ State.reset.driveAgrees = true ∧ State.reset.cmdWellFormed = true

/-- A run the environment drives stays in the ranges of 10_state.md R24, whatever it does. -/
def Obligations.DrivenRunStaysInRange : Prop :=
  ∀ s t : State, s.Driven → step s = .next t → t.Driven

/-- CMD always holds a word of 30_encoding.md R56, whatever is presented. -/
def Obligations.CmdStaysWellFormed : Prop :=
  ∀ s t : State, s.cmdWellFormed = true → step s = .next t → t.cmdWellFormed = true

/-- The local drive level always agrees with the sequencer: neutral exactly when the countdown has run out, else the duty of the
direction. -/
def Obligations.LocalDriveAgreesWithSequencer : Prop :=
  ∀ s t : State, s.Driven → s.driveAgrees = true → step s = .next t → t.driveAgrees = true

/-! ### Environment contract and traces (the model's closed loop, log 15, log 16) -/

/-- Any number of `set()` calls, at least one, give exactly one true take; the next take is false. A `set()` changes only the
flag. -/
def Obligations.GateGivesOneTrigger : Prop :=
  ∀ (l : Loop) (n : Nat),
    (Loop.gateSet^[n + 1] l).gateTake.1 = true ∧ (Loop.gateSet^[n + 1] l).gateTake.2 = { l with gate := false } ∧
    (Loop.gateSet^[n + 1] l).gateTake.2.gateTake.1 = false

/-- An iteration kicks the watchdog, takes the gate into EXT, samples the three lines, and performs the step's actions in order;
it completes whenever the watchdog's timeout is longer than `3*SETTLE_MS + PERIOD_MS` and the work (R180; log 19). -/
def Obligations.IterationTakesTheGateAndCompletes : Prop :=
  ∀ (level : Nat → Bool) (extra : Nat) (l : Loop), l.run = .running → l.block.params.legal = true →
    watchdogMargin l.block.params extra = true →
    ∃ l', l.iterate level extra = .next l' ∧ l'.run = .running ∧ l'.gate = false ∧
      l'.block.wires.ext = l.gate ∧ l'.block.wires.sP = !level l.block.params.lineOfP ∧
      l'.block.wires.sA = !level l.block.params.lineOfA ∧ l'.block.wires.sB = !level l.block.params.lineOfB ∧
      (l.gate = true → l'.block.dir = !l.block.dir) ∧
      l'.calls = l.calls ++ .resetWatchdog :: callsOf l'.block.acts

/-- A timeout that is not longer than `3*SETTLE_MS + PERIOD_MS` and the work starves the watchdog: an iteration in which all
three fire faults (at equality by the model's choice, log 19). -/
def Obligations.ShortTimeoutStarvesTheWatchdog : Prop :=
  ∀ (level : Nat → Bool) (extra : Nat) (l : Loop), l.run = .running → l.block.params.legal = true →
    (∀ i, (stepWires (l.siw level) l.block).fire i = true) →
    watchdogMargin l.block.params extra = false →
    l.iterate level extra = .fault .watchdogStarved

/-- After a stop request the next iteration makes no step, and no iteration after it runs until a start, which applies RESET and
clears the gate. -/
def Obligations.StopEndsAtTheIterationBoundary : Prop :=
  ∀ (level : Nat → Bool) (extra : Nat) (l : Loop), l.run = .running →
    l.requestStop.iterate level extra = .next { l with run := .stopped } ∧
    ({ l with run := .stopped } : Loop).iterate level extra = .refused .loopNotRunning ∧
    (l.block.params.legal = true → ∃ l', ({ l with run := .stopped } : Loop).start = .next l' ∧ l'.run = .running ∧
      l'.gate = false ∧ exec .reset l.block = .next l'.block)

/-- 30_encoding.md R62 and R63: the set of asserted inputs gives SIW = `X, not B, not A, not P`, and the pseudo-instructions
expand to STEP lines. -/
def Obligations.TraceLinesMeanTheirSteps : Prop :=
  (∀ p a b x : Bool, (p || a || b || x) = true →
    parseSet ((if p then ['P'] else []) ++ (if a then ['A'] else []) ++ (if b then ['B'] else []) ++
      (if x then ['X'] else [])) =
      some (BitVec.ofBool x ++ BitVec.ofBool (!b) ++ BitVec.ofBool (!a) ++ BitVec.ofBool (!p))) ∧
  parseSet ['-'] = some 0x7#4 ∧
  (∀ n, TraceLine.expand (.idle n) = List.replicate n (.step 0x7#4)) ∧
  (∀ siw n, TraceLine.expand (.hold siw n) = List.replicate n (.step siw)) ∧
  TraceLine.expand .flap = [.step 0xF#4] ∧
  (∀ siw, TraceLine.expand (.step siw) = [.step siw]) ∧ TraceLine.expand .reset = [.reset] ∧
  TraceLine.wellFormed (.idle 0) = false ∧ (∀ siw, TraceLine.wellFormed (.hold siw 0) = false)

/-- A trace whose first operation is not RESET is refused unless a start state is given; one that starts with RESET, or from a
state in range, runs to its end in an admitted configuration. -/
def Obligations.TraceNeedsResetOrStartState : Prop :=
  (∀ (p : Params) (lines : List TraceLine), lines.all TraceLine.wellFormed = true → lines.head? ≠ some .reset →
    runTrace p none lines = .refused .traceWithoutReset) ∧
  (∀ (p : Params) (lines : List TraceLine), p.legal = true → (TraceLine.reset :: lines).all TraceLine.wellFormed = true →
    ∃ r, runTrace p none (.reset :: lines) = .next r ∧
      r.observed.length = (expandTrace lines).length + 1) ∧
  (∀ (p : Params) (s : State) (lines : List TraceLine), s.params.legal = true → lines.all TraceLine.wellFormed = true →
    s.inRange = true → ∃ r, runTrace p (some s) lines = .next r ∧ r.observed.length = (expandTrace lines).length) ∧
  (∀ (p : Params) (s : State) (lines : List TraceLine), lines.all TraceLine.wellFormed = true →
    s.inRange = false → runTrace p (some s) lines = .refused .startStateUnreachable)

/-- 43_step.md R140: what a run shows of each step is that step's actions and CMD and LDR after it, in order. The trace runner is
the model's (log 16). -/
def Obligations.RunShowsEveryStep : Prop :=
  ∀ (s : State) (siws : List Siw), s.params.legal = true →
    ∃ r, runOps (siws.map .step) s = .next r ∧ r.observed.length = siws.length ∧
      ∀ k < siws.length, ∃ t, execAll ((siws.take (k + 1)).map .step) s = .next t ∧
        r.observed[k]? = some ⟨t.acts, t.cmd, t.ldr⟩
end

