-- ==== Sys2Proof/Laws/Arith.lean ====
section
/-! SUPPORT. What the saturating arithmetic of 00_scope.md R12 computes. -/

namespace Sys2Proof.Machine

@[simp] theorem satDec_zero : satDec 0 = 0 := rfl

@[simp] theorem satDec_succ (c : Nat) : satDec (c + 1) = c := by simp [satDec]

theorem satDec_eq_pred (c : Nat) : satDec c = c - 1 := by cases c <;> simp [satDec]

@[simp] theorem satInc_top (n : Nat) : satInc n (2 ^ n - 1) = 2 ^ n - 1 := by simp [satInc]

theorem satInc_of_lt {n c : Nat} (h : c < 2 ^ n - 1) : satInc n c = c + 1 := by
  simp only [satInc]; split <;> omega

theorem satInc_le_succ (n c : Nat) : satInc n c ≤ c + 1 := by
  simp only [satInc]; split <;> omega

theorem le_satInc (n c : Nat) : c ≤ satInc n c := by
  simp only [satInc]; split <;> omega

theorem satSub_eq_sub (c k : Nat) : satSub c k = c - k := by
  simp only [satSub]; split <;> omega

theorem satSub_le (c k : Nat) : satSub c k ≤ c := by rw [satSub_eq_sub]; omega

/-- The saturated countdown is the source's signed count cut off at 0 (41_sequencer.md R96). -/
theorem satSub_toNat (c : Int) (k : Nat) : satSub c.toNat k = (c - k).toNat := by
  rw [satSub_eq_sub]; omega

end Sys2Proof.Machine
end

