-- ==== Sys2Proof/Laws/Encoding.lean ====
section
/-! SUPPORT. The fields of an assembled word are what it was assembled from, and a word is assembled from its fields. -/

namespace Sys2Proof

@[simp] theorem cmdKind_cmdAssemble (k : BitVec 4) (t : BitVec 8) (v : F32) : cmdKind (cmdAssemble k t v) = k := by
  ext j hj
  simp only [cmdKind, cmdAssemble, BitVec.getElem_extractLsb', BitVec.getLsbD_append]
  interval_cases j <;> simp [BitVec.getLsbD_eq_getElem]

@[simp] theorem cmdRsvd_cmdAssemble (k : BitVec 4) (t : BitVec 8) (v : F32) : cmdRsvd (cmdAssemble k t v) = 0#4 := by
  ext j hj
  simp only [cmdRsvd, cmdAssemble, BitVec.getElem_extractLsb', BitVec.getLsbD_append]
  interval_cases j <;> simp

@[simp] theorem cmdTarget_cmdAssemble (k : BitVec 4) (t : BitVec 8) (v : F32) : cmdTarget (cmdAssemble k t v) = t := by
  ext j hj
  simp only [cmdTarget, cmdAssemble, BitVec.getElem_extractLsb', BitVec.getLsbD_append]
  interval_cases j <;> simp [BitVec.getLsbD_eq_getElem]

@[simp] theorem cmdValue_cmdAssemble (k : BitVec 4) (t : BitVec 8) (v : F32) : cmdValue (cmdAssemble k t v) = v := by
  ext j hj
  simp only [cmdValue, cmdAssemble, BitVec.getElem_extractLsb', BitVec.getLsbD_append]
  simp [BitVec.getLsbD_eq_getElem, hj]

/-- A command word with RSVD 0 is assembled from its KIND, TARGET and VALUE. -/
theorem cmdAssemble_fields (w : CmdWord) (h : cmdRsvd w = 0#4) :
    cmdAssemble (cmdKind w) (cmdTarget w) (cmdValue w) = w := by
  rw [cmdAssemble, ← h]
  ext j hj
  simp only [cmdKind, cmdRsvd, cmdTarget, cmdValue, BitVec.getElem_append, BitVec.getElem_extractLsb']
  split
  · simp [BitVec.getLsbD_eq_getElem, hj]
  · split
    · rw [BitVec.getLsbD_eq_getElem (by omega)]; congr 1; omega
    · split
      · rw [BitVec.getLsbD_eq_getElem (by omega)]; congr 1; omega
      · rw [BitVec.getLsbD_eq_getElem (by omega)]; congr 1; omega

/-- The 16 bits of a UOP7 carrier. -/
theorem uop_bits (opid : BitVec 5) (inst : BitVec 2) (x : BitVec 4) (j : Nat) (hj : j < 16) :
    (0#4 ++ x ++ 0#1 ++ opid ++ inst).getLsbD j =
      (if j < 2 then inst.getLsbD j else if j < 7 then opid.getLsbD (j - 2)
        else if 8 ≤ j ∧ j < 12 then x.getLsbD (j - 8) else false) := by
  simp only [BitVec.getLsbD_append]
  interval_cases j <;> simp

@[simp] theorem uopOpid_assemble (opid : BitVec 5) (inst : BitVec 2) (x : BitVec 4) :
    uopOpid (0#4 ++ x ++ 0#1 ++ opid ++ inst) = opid := by
  ext j hj
  rw [uopOpid, BitVec.getElem_extractLsb', uop_bits _ _ _ _ (by omega)]
  interval_cases j <;> simp [BitVec.getLsbD_eq_getElem]

@[simp] theorem uopInst_assemble (opid : BitVec 5) (inst : BitVec 2) (x : BitVec 4) :
    uopInst (0#4 ++ x ++ 0#1 ++ opid ++ inst) = inst := by
  ext j hj
  rw [uopInst, BitVec.getElem_extractLsb', uop_bits _ _ _ _ (by omega)]
  interval_cases j <;> simp [BitVec.getLsbD_eq_getElem]

@[simp] theorem uopOperand_assemble (opid : BitVec 5) (inst : BitVec 2) (x : BitVec 4) :
    uopOperand (0#4 ++ x ++ 0#1 ++ opid ++ inst) = x := by
  ext j hj
  rw [uopOperand, BitVec.getElem_extractLsb', uop_bits _ _ _ _ (by omega)]
  interval_cases j <;> simp [BitVec.getLsbD_eq_getElem]

@[simp] theorem uopSpareZero_assemble (opid : BitVec 5) (inst : BitVec 2) (x : BitVec 4) :
    uopSpareZero (0#4 ++ x ++ 0#1 ++ opid ++ inst) = true := by
  simp only [uopSpareZero, Bool.and_eq_true, beq_iff_eq]
  constructor <;> ext j hj <;> rw [BitVec.getElem_extractLsb', uop_bits _ _ _ _ (by omega)] <;>
    interval_cases j <;> simp

/-- A carrier whose spare bits are 0 is assembled from its fields. -/
theorem uopAssemble_fields (b : BitVec 16) (h : uopSpareZero b = true) :
    uopAssemble (uopOpid b) (uopInst b) (uopOperand b) = .uop b := by
  simp only [uopSpareZero, Bool.and_eq_true, beq_iff_eq] at h
  have high : ∀ j, j < 4 → b.getLsbD (12 + j) = false := by
    intro j hj
    have := congrArg (fun v : BitVec 4 => v.getLsbD j) h.1
    simpa [BitVec.getLsbD_extractLsb', hj] using this
  have seven : b.getLsbD 7 = false := by
    have := congrArg (fun v : BitVec 1 => v.getLsbD 0) h.2
    simpa [BitVec.getLsbD_extractLsb'] using this
  have h12 := high 0 (by omega)
  have h13 := high 1 (by omega)
  have h14 := high 2 (by omega)
  have h15 := high 3 (by omega)
  rw [uopAssemble]
  congr 1
  ext j hj
  rw [← BitVec.getLsbD_eq_getElem, uop_bits _ _ _ _ hj, ← BitVec.getLsbD_eq_getElem]
  simp only [uopOpid, uopInst, uopOperand, BitVec.getLsbD_extractLsb']
  interval_cases j <;> simp_all

end Sys2Proof

namespace Sys2Proof.Machine

@[simp] theorem cmdKind_sourceWord (p : Params) (d : Bool) (src : Source) :
    cmdKind (sourceWord p d src) = sourceKind src := by simp [sourceWord]

@[simp] theorem cmdRsvd_sourceWord (p : Params) (d : Bool) (src : Source) :
    cmdRsvd (sourceWord p d src) = 0#4 := by simp [sourceWord]

@[simp] theorem cmdTarget_sourceWord (p : Params) (d : Bool) (src : Source) :
    cmdTarget (sourceWord p d src) = sourceTarget p src := by simp [sourceWord]

@[simp] theorem cmdValue_sourceWord (p : Params) (d : Bool) (src : Source) :
    cmdValue (sourceWord p d src) = sourceValue p d src := by simp [sourceWord]

/-- The neutral word (42_command_mux.md R111, `SRC_NTL`). -/
theorem sourceWord_ntl (p : Params) (d : Bool) : sourceWord p d .ntl = 0x100000000000#48 := by
  simp only [sourceWord, sourceKind, sourceTarget, sourceValue, F32.neutral]; decide

/-- Only the toggle's local word and the neutral are LOCAL_DUTY words (42_command_mux.md R110). -/
@[simp] theorem isLocalDuty_sourceWord (p : Params) (d : Bool) (src : Source) :
    isLocalDuty (sourceWord p d src) = (decide (src = .tdl) || decide (src = .ntl)) := by
  cases src <;> simp [isLocalDuty, sourceKind, kindLocalDuty, kindBusDuty, kindBusCurrent, kindBusCurrentBrake]

/-- The other three are bus words (42_command_mux.md R110). -/
@[simp] theorem isBusKind_sourceWord (p : Params) (d : Bool) (src : Source) :
    isBusKind (sourceWord p d src) = !(decide (src = .tdl) || decide (src = .ntl)) := by
  cases src <;> simp [isBusKind, sourceKind, kindLocalDuty, kindBusDuty, kindBusCurrent, kindBusCurrentBrake]

/-- The word of every source decodes (30_encoding.md R59: the block emits no ill-formed word). -/
theorem decodeCmd_sourceWord (p : Params) (d : Bool) (src : Source) :
    decodeCmd (sourceWord p d src) = .ok (match src with
      | .tdl => .cmdLocalDuty (p.duty d)
      | .tdb => .cmdBusDuty p.targetField (p.duty d)
      | .cur => .cmdBusCurrent p.targetField p.curA
      | .brk => .cmdBusCurrentBrake p.targetField p.curB
      | .ntl => .cmdLocalDuty F32.neutral) := by
  cases src <;>
    simp [decodeCmd, sourceKind, sourceTarget, sourceValue, kindLocalDuty, kindBusDuty, kindBusCurrent,
      kindBusCurrentBrake]

end Sys2Proof.Machine
end

