-- ==== Sys2Proof/Laws/Environment.lean ====
section
/-! SUPPORT. The watchdog's two comparisons, and the gate. -/

namespace Sys2Proof.Machine

theorem starves_iff (p : Params) (acts : List Action) (extra : Nat) :
    starves p acts extra = true ↔ p.watchdogTimeout ≤ (waits acts).sum + extra := by
  simp [starves]

theorem watchdogMargin_iff (p : Params) (extra : Nat) :
    watchdogMargin p extra = true ↔ 3 * p.settleMs + p.periodMs + extra < p.watchdogTimeout := by
  simp [watchdogMargin]

/-- With the margin of 70_reset_and_hazards.md R180, no iteration whose waits are within the longest starves the watchdog. -/
theorem starves_false_of_margin {p : Params} {acts : List Action} {extra : Nat}
    (hm : watchdogMargin p extra = true) (hw : (waits acts).sum ≤ 3 * p.settleMs + p.periodMs) :
    starves p acts extra = false := by
  rw [watchdogMargin_iff] at hm
  rw [Bool.eq_false_iff, Ne, starves_iff]
  omega

@[simp] theorem gateSet_gate (l : Loop) : l.gateSet.gate = true := rfl
@[simp] theorem gateSet_block (l : Loop) : l.gateSet.block = l.block := rfl
@[simp] theorem gateTake_fst (l : Loop) : l.gateTake.1 = l.gate := rfl
@[simp] theorem gateTake_snd (l : Loop) : l.gateTake.2 = { l with gate := false } := rfl

end Sys2Proof.Machine
end

