-- ==== Sys2Proof/Laws/State.lean ====
section
/-! SUPPORT. One lemma per field per update of the state. -/

namespace Sys2Proof.Machine

/-! ### `State.writeDir` -/

@[simp] theorem State.writeDir_cntP (s : State) (d : Bool) : (s.writeDir d).cntP = s.cntP := rfl
@[simp] theorem State.writeDir_cntA (s : State) (d : Bool) : (s.writeDir d).cntA = s.cntA := rfl
@[simp] theorem State.writeDir_cntB (s : State) (d : Bool) : (s.writeDir d).cntB = s.cntB := rfl
@[simp] theorem State.writeDir_dir (s : State) (d : Bool) : (s.writeDir d).dir = d := rfl
@[simp] theorem State.writeDir_cd (s : State) (d : Bool) : (s.writeDir d).cd = s.cd := rfl
@[simp] theorem State.writeDir_cmd (s : State) (d : Bool) : (s.writeDir d).cmd = s.cmd := rfl
@[simp] theorem State.writeDir_ldr (s : State) (d : Bool) : (s.writeDir d).ldr = s.ldr := rfl
@[simp] theorem State.writeDir_acts (s : State) (d : Bool) : (s.writeDir d).acts = s.acts := rfl
@[simp] theorem State.writeDir_wires (s : State) (d : Bool) : (s.writeDir d).wires = s.wires := rfl
@[simp] theorem State.writeDir_params (s : State) (d : Bool) : (s.writeDir d).params = s.params := rfl
@[simp] theorem State.writeDir_port (s : State) (d : Bool) : (s.writeDir d).port = s.port := rfl

/-! ### `State.writeCd` -/

@[simp] theorem State.writeCd_cntP (s : State) (v : Nat) : (s.writeCd v).cntP = s.cntP := rfl
@[simp] theorem State.writeCd_cntA (s : State) (v : Nat) : (s.writeCd v).cntA = s.cntA := rfl
@[simp] theorem State.writeCd_cntB (s : State) (v : Nat) : (s.writeCd v).cntB = s.cntB := rfl
@[simp] theorem State.writeCd_dir (s : State) (v : Nat) : (s.writeCd v).dir = s.dir := rfl
@[simp] theorem State.writeCd_cd (s : State) (v : Nat) : (s.writeCd v).cd = v := rfl
@[simp] theorem State.writeCd_cmd (s : State) (v : Nat) : (s.writeCd v).cmd = s.cmd := rfl
@[simp] theorem State.writeCd_ldr (s : State) (v : Nat) : (s.writeCd v).ldr = s.ldr := rfl
@[simp] theorem State.writeCd_acts (s : State) (v : Nat) : (s.writeCd v).acts = s.acts := rfl
@[simp] theorem State.writeCd_wires (s : State) (v : Nat) : (s.writeCd v).wires = s.wires := rfl
@[simp] theorem State.writeCd_params (s : State) (v : Nat) : (s.writeCd v).params = s.params := rfl
@[simp] theorem State.writeCd_port (s : State) (v : Nat) : (s.writeCd v).port = s.port := rfl

/-! ### `State.drive` -/

@[simp] theorem State.drive_cntP (s : State) (w : Wires) : (s.drive w).cntP = s.cntP := rfl
@[simp] theorem State.drive_cntA (s : State) (w : Wires) : (s.drive w).cntA = s.cntA := rfl
@[simp] theorem State.drive_cntB (s : State) (w : Wires) : (s.drive w).cntB = s.cntB := rfl
@[simp] theorem State.drive_dir (s : State) (w : Wires) : (s.drive w).dir = s.dir := rfl
@[simp] theorem State.drive_cd (s : State) (w : Wires) : (s.drive w).cd = s.cd := rfl
@[simp] theorem State.drive_cmd (s : State) (w : Wires) : (s.drive w).cmd = s.cmd := rfl
@[simp] theorem State.drive_ldr (s : State) (w : Wires) : (s.drive w).ldr = s.ldr := rfl
@[simp] theorem State.drive_acts (s : State) (w : Wires) : (s.drive w).acts = s.acts := rfl
@[simp] theorem State.drive_wires (s : State) (w : Wires) : (s.drive w).wires = w := rfl
@[simp] theorem State.drive_params (s : State) (w : Wires) : (s.drive w).params = s.params := rfl
@[simp] theorem State.drive_port (s : State) (w : Wires) : (s.drive w).port = s.port := rfl

/-! ### `State.emit` -/

@[simp] theorem State.emit_cntP (s : State) (w : CmdWord) : (s.emit w).cntP = s.cntP := rfl
@[simp] theorem State.emit_cntA (s : State) (w : CmdWord) : (s.emit w).cntA = s.cntA := rfl
@[simp] theorem State.emit_cntB (s : State) (w : CmdWord) : (s.emit w).cntB = s.cntB := rfl
@[simp] theorem State.emit_dir (s : State) (w : CmdWord) : (s.emit w).dir = s.dir := rfl
@[simp] theorem State.emit_cd (s : State) (w : CmdWord) : (s.emit w).cd = s.cd := rfl
@[simp] theorem State.emit_cmd (s : State) (w : CmdWord) : (s.emit w).cmd = w := rfl
@[simp] theorem State.emit_ldr (s : State) (w : CmdWord) : (s.emit w).ldr = if isLocalDuty w then cmdValue w else s.ldr := rfl
@[simp] theorem State.emit_acts (s : State) (w : CmdWord) : (s.emit w).acts = s.acts ++ [.emit w] := rfl
@[simp] theorem State.emit_wires (s : State) (w : CmdWord) : (s.emit w).wires = s.wires := rfl
@[simp] theorem State.emit_params (s : State) (w : CmdWord) : (s.emit w).params = s.params := rfl
@[simp] theorem State.emit_port (s : State) (w : CmdWord) : (s.emit w).port = s.port := rfl

/-! ### `State.wait` -/

@[simp] theorem State.wait_cntP (s : State) (ms : Nat) : (s.wait ms).cntP = s.cntP := rfl
@[simp] theorem State.wait_cntA (s : State) (ms : Nat) : (s.wait ms).cntA = s.cntA := rfl
@[simp] theorem State.wait_cntB (s : State) (ms : Nat) : (s.wait ms).cntB = s.cntB := rfl
@[simp] theorem State.wait_dir (s : State) (ms : Nat) : (s.wait ms).dir = s.dir := rfl
@[simp] theorem State.wait_cd (s : State) (ms : Nat) : (s.wait ms).cd = s.cd := rfl
@[simp] theorem State.wait_cmd (s : State) (ms : Nat) : (s.wait ms).cmd = s.cmd := rfl
@[simp] theorem State.wait_ldr (s : State) (ms : Nat) : (s.wait ms).ldr = s.ldr := rfl
@[simp] theorem State.wait_acts (s : State) (ms : Nat) : (s.wait ms).acts = s.acts ++ [.wait ms] := rfl
@[simp] theorem State.wait_wires (s : State) (ms : Nat) : (s.wait ms).wires = s.wires := rfl
@[simp] theorem State.wait_params (s : State) (ms : Nat) : (s.wait ms).params = s.params := rfl
@[simp] theorem State.wait_port (s : State) (ms : Nat) : (s.wait ms).port = s.port := rfl

/-! ### `State.applyReset` -/

@[simp] theorem State.applyReset_cntP (s : State) : (s.applyReset).cntP = 0 := rfl
@[simp] theorem State.applyReset_cntA (s : State) : (s.applyReset).cntA = 0 := rfl
@[simp] theorem State.applyReset_cntB (s : State) : (s.applyReset).cntB = 0 := rfl
@[simp] theorem State.applyReset_dir (s : State) : (s.applyReset).dir = s.params.dirReset := rfl
@[simp] theorem State.applyReset_cd (s : State) : (s.applyReset).cd = 0 := rfl
@[simp] theorem State.applyReset_cmd (s : State) : (s.applyReset).cmd = 0#48 := rfl
@[simp] theorem State.applyReset_ldr (s : State) : (s.applyReset).ldr = 0#32 := rfl
@[simp] theorem State.applyReset_acts (s : State) : (s.applyReset).acts = [] := rfl
@[simp] theorem State.applyReset_wires (s : State) : (s.applyReset).wires = s.wires := rfl
@[simp] theorem State.applyReset_params (s : State) : (s.applyReset).params = s.params := rfl
@[simp] theorem State.applyReset_port (s : State) : (s.applyReset).port = s.port := rfl

/-! ### `State.withPort` -/

@[simp] theorem State.withPort_cntP (s : State) (rest : List RawWord) : (s.withPort rest).cntP = s.cntP := rfl
@[simp] theorem State.withPort_cntA (s : State) (rest : List RawWord) : (s.withPort rest).cntA = s.cntA := rfl
@[simp] theorem State.withPort_cntB (s : State) (rest : List RawWord) : (s.withPort rest).cntB = s.cntB := rfl
@[simp] theorem State.withPort_dir (s : State) (rest : List RawWord) : (s.withPort rest).dir = s.dir := rfl
@[simp] theorem State.withPort_cd (s : State) (rest : List RawWord) : (s.withPort rest).cd = s.cd := rfl
@[simp] theorem State.withPort_cmd (s : State) (rest : List RawWord) : (s.withPort rest).cmd = s.cmd := rfl
@[simp] theorem State.withPort_ldr (s : State) (rest : List RawWord) : (s.withPort rest).ldr = s.ldr := rfl
@[simp] theorem State.withPort_acts (s : State) (rest : List RawWord) : (s.withPort rest).acts = s.acts := rfl
@[simp] theorem State.withPort_wires (s : State) (rest : List RawWord) : (s.withPort rest).wires = s.wires := rfl
@[simp] theorem State.withPort_params (s : State) (rest : List RawWord) : (s.withPort rest).params = s.params := rfl
@[simp] theorem State.withPort_port (s : State) (rest : List RawWord) : (s.withPort rest).port = rest := rfl

/-! ### `State.present` -/

@[simp] theorem State.present_cntP (s : State) (r : RawWord) : (s.present r).cntP = s.cntP := rfl
@[simp] theorem State.present_cntA (s : State) (r : RawWord) : (s.present r).cntA = s.cntA := rfl
@[simp] theorem State.present_cntB (s : State) (r : RawWord) : (s.present r).cntB = s.cntB := rfl
@[simp] theorem State.present_dir (s : State) (r : RawWord) : (s.present r).dir = s.dir := rfl
@[simp] theorem State.present_cd (s : State) (r : RawWord) : (s.present r).cd = s.cd := rfl
@[simp] theorem State.present_cmd (s : State) (r : RawWord) : (s.present r).cmd = s.cmd := rfl
@[simp] theorem State.present_ldr (s : State) (r : RawWord) : (s.present r).ldr = s.ldr := rfl
@[simp] theorem State.present_acts (s : State) (r : RawWord) : (s.present r).acts = s.acts := rfl
@[simp] theorem State.present_wires (s : State) (r : RawWord) : (s.present r).wires = s.wires := rfl
@[simp] theorem State.present_params (s : State) (r : RawWord) : (s.present r).params = s.params := rfl
@[simp] theorem State.present_port (s : State) (r : RawWord) : (s.present r).port = s.port ++ [r] := rfl

/-! ### `State.presentFirst` -/

@[simp] theorem State.presentFirst_cntP (s : State) (r : RawWord) : (s.presentFirst r).cntP = s.cntP := rfl
@[simp] theorem State.presentFirst_cntA (s : State) (r : RawWord) : (s.presentFirst r).cntA = s.cntA := rfl
@[simp] theorem State.presentFirst_cntB (s : State) (r : RawWord) : (s.presentFirst r).cntB = s.cntB := rfl
@[simp] theorem State.presentFirst_dir (s : State) (r : RawWord) : (s.presentFirst r).dir = s.dir := rfl
@[simp] theorem State.presentFirst_cd (s : State) (r : RawWord) : (s.presentFirst r).cd = s.cd := rfl
@[simp] theorem State.presentFirst_cmd (s : State) (r : RawWord) : (s.presentFirst r).cmd = s.cmd := rfl
@[simp] theorem State.presentFirst_ldr (s : State) (r : RawWord) : (s.presentFirst r).ldr = s.ldr := rfl
@[simp] theorem State.presentFirst_acts (s : State) (r : RawWord) : (s.presentFirst r).acts = s.acts := rfl
@[simp] theorem State.presentFirst_wires (s : State) (r : RawWord) : (s.presentFirst r).wires = s.wires := rfl
@[simp] theorem State.presentFirst_params (s : State) (r : RawWord) : (s.presentFirst r).params = s.params := rfl
@[simp] theorem State.presentFirst_port (s : State) (r : RawWord) : (s.presentFirst r).port = r :: s.port := rfl

/-! ### `State.writeCnt` -/

@[simp] theorem State.writeCnt_p_cntP (s : State) (v : Nat) : (s.writeCnt .p v).cntP = v := rfl
@[simp] theorem State.writeCnt_a_cntP (s : State) (v : Nat) : (s.writeCnt .a v).cntP = s.cntP := rfl
@[simp] theorem State.writeCnt_b_cntP (s : State) (v : Nat) : (s.writeCnt .b v).cntP = s.cntP := rfl
@[simp] theorem State.writeCnt_p_cntA (s : State) (v : Nat) : (s.writeCnt .p v).cntA = s.cntA := rfl
@[simp] theorem State.writeCnt_a_cntA (s : State) (v : Nat) : (s.writeCnt .a v).cntA = v := rfl
@[simp] theorem State.writeCnt_b_cntA (s : State) (v : Nat) : (s.writeCnt .b v).cntA = s.cntA := rfl
@[simp] theorem State.writeCnt_p_cntB (s : State) (v : Nat) : (s.writeCnt .p v).cntB = s.cntB := rfl
@[simp] theorem State.writeCnt_a_cntB (s : State) (v : Nat) : (s.writeCnt .a v).cntB = s.cntB := rfl
@[simp] theorem State.writeCnt_b_cntB (s : State) (v : Nat) : (s.writeCnt .b v).cntB = v := rfl
@[simp] theorem State.writeCnt_dir (s : State) (i : DbcInst) (v : Nat) : (s.writeCnt i v).dir = s.dir := by
  cases i <;> rfl
@[simp] theorem State.writeCnt_cd (s : State) (i : DbcInst) (v : Nat) : (s.writeCnt i v).cd = s.cd := by
  cases i <;> rfl
@[simp] theorem State.writeCnt_cmd (s : State) (i : DbcInst) (v : Nat) : (s.writeCnt i v).cmd = s.cmd := by
  cases i <;> rfl
@[simp] theorem State.writeCnt_ldr (s : State) (i : DbcInst) (v : Nat) : (s.writeCnt i v).ldr = s.ldr := by
  cases i <;> rfl
@[simp] theorem State.writeCnt_acts (s : State) (i : DbcInst) (v : Nat) : (s.writeCnt i v).acts = s.acts := by
  cases i <;> rfl
@[simp] theorem State.writeCnt_wires (s : State) (i : DbcInst) (v : Nat) : (s.writeCnt i v).wires = s.wires := by
  cases i <;> rfl
@[simp] theorem State.writeCnt_params (s : State) (i : DbcInst) (v : Nat) : (s.writeCnt i v).params = s.params := by
  cases i <;> rfl
@[simp] theorem State.writeCnt_port (s : State) (i : DbcInst) (v : Nat) : (s.writeCnt i v).port = s.port := by
  cases i <;> rfl

@[simp] theorem State.cnt_p (s : State) : s.cnt .p = s.cntP := rfl
@[simp] theorem State.cnt_a (s : State) : s.cnt .a = s.cntA := rfl
@[simp] theorem State.cnt_b (s : State) : s.cnt .b = s.cntB := rfl

/-- A write to one counter is what that counter reads, and no other. -/
theorem State.cnt_writeCnt (s : State) (i j : DbcInst) (v : Nat) :
    (s.writeCnt i v).cnt j = if i = j then v else s.cnt j := by
  cases i <;> cases j <;> rfl

/-! ### Wires -/

@[simp] theorem Wires.driveU_sP (w : Wires) (i : DbcInst) (v : Nat) : (w.driveU i v).sP = w.sP := by
  cases i <;> rfl
@[simp] theorem Wires.driveU_sA (w : Wires) (i : DbcInst) (v : Nat) : (w.driveU i v).sA = w.sA := by
  cases i <;> rfl
@[simp] theorem Wires.driveU_sB (w : Wires) (i : DbcInst) (v : Nat) : (w.driveU i v).sB = w.sB := by
  cases i <;> rfl
@[simp] theorem Wires.driveU_ext (w : Wires) (i : DbcInst) (v : Nat) : (w.driveU i v).ext = w.ext := by
  cases i <;> rfl
@[simp] theorem Wires.driveU_p_uP (w : Wires) (v : Nat) : (w.driveU .p v).uP = v := rfl
@[simp] theorem Wires.driveU_a_uP (w : Wires) (v : Nat) : (w.driveU .a v).uP = w.uP := rfl
@[simp] theorem Wires.driveU_b_uP (w : Wires) (v : Nat) : (w.driveU .b v).uP = w.uP := rfl
@[simp] theorem Wires.driveU_p_uA (w : Wires) (v : Nat) : (w.driveU .p v).uA = w.uA := rfl
@[simp] theorem Wires.driveU_a_uA (w : Wires) (v : Nat) : (w.driveU .a v).uA = v := rfl
@[simp] theorem Wires.driveU_b_uA (w : Wires) (v : Nat) : (w.driveU .b v).uA = w.uA := rfl
@[simp] theorem Wires.driveU_p_uB (w : Wires) (v : Nat) : (w.driveU .p v).uB = w.uB := rfl
@[simp] theorem Wires.driveU_a_uB (w : Wires) (v : Nat) : (w.driveU .a v).uB = w.uB := rfl
@[simp] theorem Wires.driveU_b_uB (w : Wires) (v : Nat) : (w.driveU .b v).uB = v := rfl
@[simp] theorem Wires.driveU_hitP (w : Wires) (i : DbcInst) (v : Nat) : (w.driveU i v).hitP = w.hitP := by
  cases i <;> rfl
@[simp] theorem Wires.driveU_hitA (w : Wires) (i : DbcInst) (v : Nat) : (w.driveU i v).hitA = w.hitA := by
  cases i <;> rfl
@[simp] theorem Wires.driveU_hitB (w : Wires) (i : DbcInst) (v : Nat) : (w.driveU i v).hitB = w.hitB := by
  cases i <;> rfl
@[simp] theorem Wires.driveU_dir1 (w : Wires) (i : DbcInst) (v : Nat) : (w.driveU i v).dir1 = w.dir1 := by
  cases i <;> rfl
@[simp] theorem Wires.driveU_duty (w : Wires) (i : DbcInst) (v : Nat) : (w.driveU i v).duty = w.duty := by
  cases i <;> rfl
@[simp] theorem Wires.driveU_cd1 (w : Wires) (i : DbcInst) (v : Nat) : (w.driveU i v).cd1 = w.cd1 := by
  cases i <;> rfl
@[simp] theorem Wires.driveU_cd2 (w : Wires) (i : DbcInst) (v : Nat) : (w.driveU i v).cd2 = w.cd2 := by
  cases i <;> rfl
@[simp] theorem Wires.driveU_neutral (w : Wires) (i : DbcInst) (v : Nat) : (w.driveU i v).neutral = w.neutral := by
  cases i <;> rfl
@[simp] theorem Wires.driveHit_sP (w : Wires) (i : DbcInst) (v : Bool) : (w.driveHit i v).sP = w.sP := by
  cases i <;> rfl
@[simp] theorem Wires.driveHit_sA (w : Wires) (i : DbcInst) (v : Bool) : (w.driveHit i v).sA = w.sA := by
  cases i <;> rfl
@[simp] theorem Wires.driveHit_sB (w : Wires) (i : DbcInst) (v : Bool) : (w.driveHit i v).sB = w.sB := by
  cases i <;> rfl
@[simp] theorem Wires.driveHit_ext (w : Wires) (i : DbcInst) (v : Bool) : (w.driveHit i v).ext = w.ext := by
  cases i <;> rfl
@[simp] theorem Wires.driveHit_uP (w : Wires) (i : DbcInst) (v : Bool) : (w.driveHit i v).uP = w.uP := by
  cases i <;> rfl
@[simp] theorem Wires.driveHit_uA (w : Wires) (i : DbcInst) (v : Bool) : (w.driveHit i v).uA = w.uA := by
  cases i <;> rfl
@[simp] theorem Wires.driveHit_uB (w : Wires) (i : DbcInst) (v : Bool) : (w.driveHit i v).uB = w.uB := by
  cases i <;> rfl
@[simp] theorem Wires.driveHit_p_hitP (w : Wires) (v : Bool) : (w.driveHit .p v).hitP = v := rfl
@[simp] theorem Wires.driveHit_a_hitP (w : Wires) (v : Bool) : (w.driveHit .a v).hitP = w.hitP := rfl
@[simp] theorem Wires.driveHit_b_hitP (w : Wires) (v : Bool) : (w.driveHit .b v).hitP = w.hitP := rfl
@[simp] theorem Wires.driveHit_p_hitA (w : Wires) (v : Bool) : (w.driveHit .p v).hitA = w.hitA := rfl
@[simp] theorem Wires.driveHit_a_hitA (w : Wires) (v : Bool) : (w.driveHit .a v).hitA = v := rfl
@[simp] theorem Wires.driveHit_b_hitA (w : Wires) (v : Bool) : (w.driveHit .b v).hitA = w.hitA := rfl
@[simp] theorem Wires.driveHit_p_hitB (w : Wires) (v : Bool) : (w.driveHit .p v).hitB = w.hitB := rfl
@[simp] theorem Wires.driveHit_a_hitB (w : Wires) (v : Bool) : (w.driveHit .a v).hitB = w.hitB := rfl
@[simp] theorem Wires.driveHit_b_hitB (w : Wires) (v : Bool) : (w.driveHit .b v).hitB = v := rfl
@[simp] theorem Wires.driveHit_dir1 (w : Wires) (i : DbcInst) (v : Bool) : (w.driveHit i v).dir1 = w.dir1 := by
  cases i <;> rfl
@[simp] theorem Wires.driveHit_duty (w : Wires) (i : DbcInst) (v : Bool) : (w.driveHit i v).duty = w.duty := by
  cases i <;> rfl
@[simp] theorem Wires.driveHit_cd1 (w : Wires) (i : DbcInst) (v : Bool) : (w.driveHit i v).cd1 = w.cd1 := by
  cases i <;> rfl
@[simp] theorem Wires.driveHit_cd2 (w : Wires) (i : DbcInst) (v : Bool) : (w.driveHit i v).cd2 = w.cd2 := by
  cases i <;> rfl
@[simp] theorem Wires.driveHit_neutral (w : Wires) (i : DbcInst) (v : Bool) : (w.driveHit i v).neutral = w.neutral := by
  cases i <;> rfl
@[simp] theorem Wires.driveSamples_sP (w : Wires) (siw : Siw) : (w.driveSamples siw).sP = sample siw .p := rfl
@[simp] theorem Wires.driveSamples_sA (w : Wires) (siw : Siw) : (w.driveSamples siw).sA = sample siw .a := rfl
@[simp] theorem Wires.driveSamples_sB (w : Wires) (siw : Siw) : (w.driveSamples siw).sB = sample siw .b := rfl
@[simp] theorem Wires.driveSamples_ext (w : Wires) (siw : Siw) : (w.driveSamples siw).ext = extBit siw := rfl
@[simp] theorem Wires.driveSamples_uP (w : Wires) (siw : Siw) : (w.driveSamples siw).uP = w.uP := rfl
@[simp] theorem Wires.driveSamples_uA (w : Wires) (siw : Siw) : (w.driveSamples siw).uA = w.uA := rfl
@[simp] theorem Wires.driveSamples_uB (w : Wires) (siw : Siw) : (w.driveSamples siw).uB = w.uB := rfl
@[simp] theorem Wires.driveSamples_hitP (w : Wires) (siw : Siw) : (w.driveSamples siw).hitP = w.hitP := rfl
@[simp] theorem Wires.driveSamples_hitA (w : Wires) (siw : Siw) : (w.driveSamples siw).hitA = w.hitA := rfl
@[simp] theorem Wires.driveSamples_hitB (w : Wires) (siw : Siw) : (w.driveSamples siw).hitB = w.hitB := rfl
@[simp] theorem Wires.driveSamples_dir1 (w : Wires) (siw : Siw) : (w.driveSamples siw).dir1 = w.dir1 := rfl
@[simp] theorem Wires.driveSamples_duty (w : Wires) (siw : Siw) : (w.driveSamples siw).duty = w.duty := rfl
@[simp] theorem Wires.driveSamples_cd1 (w : Wires) (siw : Siw) : (w.driveSamples siw).cd1 = w.cd1 := rfl
@[simp] theorem Wires.driveSamples_cd2 (w : Wires) (siw : Siw) : (w.driveSamples siw).cd2 = w.cd2 := rfl
@[simp] theorem Wires.driveSamples_neutral (w : Wires) (siw : Siw) : (w.driveSamples siw).neutral = w.neutral := rfl

/-! ### `Wires.driveTick` -/

@[simp] theorem Wires.driveTick_cd2 (w : Wires) (v : Nat) : (w.driveTick v).cd2 = v := rfl
@[simp] theorem Wires.driveTick_neutral (w : Wires) (v : Nat) : (w.driveTick v).neutral = isNeutral v := rfl
@[simp] theorem Wires.driveTick_sP (w : Wires) (v : Nat) : (w.driveTick v).sP = w.sP := rfl
@[simp] theorem Wires.driveTick_sA (w : Wires) (v : Nat) : (w.driveTick v).sA = w.sA := rfl
@[simp] theorem Wires.driveTick_sB (w : Wires) (v : Nat) : (w.driveTick v).sB = w.sB := rfl
@[simp] theorem Wires.driveTick_ext (w : Wires) (v : Nat) : (w.driveTick v).ext = w.ext := rfl
@[simp] theorem Wires.driveTick_uP (w : Wires) (v : Nat) : (w.driveTick v).uP = w.uP := rfl
@[simp] theorem Wires.driveTick_uA (w : Wires) (v : Nat) : (w.driveTick v).uA = w.uA := rfl
@[simp] theorem Wires.driveTick_uB (w : Wires) (v : Nat) : (w.driveTick v).uB = w.uB := rfl
@[simp] theorem Wires.driveTick_hitP (w : Wires) (v : Nat) : (w.driveTick v).hitP = w.hitP := rfl
@[simp] theorem Wires.driveTick_hitA (w : Wires) (v : Nat) : (w.driveTick v).hitA = w.hitA := rfl
@[simp] theorem Wires.driveTick_hitB (w : Wires) (v : Nat) : (w.driveTick v).hitB = w.hitB := rfl
@[simp] theorem Wires.driveTick_dir1 (w : Wires) (v : Nat) : (w.driveTick v).dir1 = w.dir1 := rfl
@[simp] theorem Wires.driveTick_duty (w : Wires) (v : Nat) : (w.driveTick v).duty = w.duty := rfl
@[simp] theorem Wires.driveTick_cd1 (w : Wires) (v : Nat) : (w.driveTick v).cd1 = w.cd1 := rfl
@[simp] theorem Wires.driveTick_fire (w : Wires) (v : Nat) (i : DbcInst) : (w.driveTick v).fire i = w.fire i := by
  cases i <;> rfl

end Sys2Proof.Machine
end

