-- ==== Sys2Proof/Laws/Ops.lean ====
section
/-! SUPPORT. Spec lemmas of the shared operations: action lists, the multiplexer's two registers, the port. -/

namespace Sys2Proof.Machine

/-! ### Action lists -/

@[simp] theorem emits_nil : emits [] = [] := rfl
@[simp] theorem emits_emit (w : CmdWord) (l : List Action) : emits (.emit w :: l) = w :: emits l := rfl
@[simp] theorem emits_wait (ms : Nat) (l : List Action) : emits (.wait ms :: l) = emits l := rfl
@[simp] theorem waits_nil : waits [] = [] := rfl
@[simp] theorem waits_emit (w : CmdWord) (l : List Action) : waits (.emit w :: l) = waits l := rfl
@[simp] theorem waits_wait (ms : Nat) (l : List Action) : waits (.wait ms :: l) = ms :: waits l := rfl

@[simp] theorem emits_append (l₁ l₂ : List Action) : emits (l₁ ++ l₂) = emits l₁ ++ emits l₂ := by
  induction l₁ with
  | nil => rfl
  | cons a l ih => cases a <;> simp [ih]

@[simp] theorem waits_append (l₁ l₂ : List Action) : waits (l₁ ++ l₂) = waits l₁ ++ waits l₂ := by
  induction l₁ with
  | nil => rfl
  | cons a l ih => cases a <;> simp [ih]

/-- `CMD` after one more emission is that word (42_command_mux.md R116). -/
@[simp] theorem cmdAfter_emit (acts : List Action) (w c : CmdWord) : cmdAfter (acts ++ [.emit w]) c = w := by
  simp [cmdAfter]

@[simp] theorem cmdAfter_wait (acts : List Action) (ms : Nat) (c : CmdWord) :
    cmdAfter (acts ++ [.wait ms]) c = cmdAfter acts c := by
  simp [cmdAfter]

/-- `LDR` after one more emission (42_command_mux.md R117). -/
@[simp] theorem ldrAfter_emit (acts : List Action) (w : CmdWord) (v : F32) :
    ldrAfter (acts ++ [.emit w]) v = if isLocalDuty w then cmdValue w else ldrAfter acts v := by
  simp only [ldrAfter, emits_append, emits_emit, emits_nil, List.filter_append, List.map_append]
  cases h : isLocalDuty w <;> simp [List.filter, h]

@[simp] theorem ldrAfter_wait (acts : List Action) (ms : Nat) (v : F32) :
    ldrAfter (acts ++ [.wait ms]) v = ldrAfter acts v := by
  simp [ldrAfter]

/-! ### The emission of SEQ_NEUTRAL -/

@[simp] theorem neutralAction_cntP (n : Bool) (s : State) : (neutralAction n s).cntP = s.cntP := by cases n <;> rfl
@[simp] theorem neutralAction_cntA (n : Bool) (s : State) : (neutralAction n s).cntA = s.cntA := by cases n <;> rfl
@[simp] theorem neutralAction_cntB (n : Bool) (s : State) : (neutralAction n s).cntB = s.cntB := by cases n <;> rfl
@[simp] theorem neutralAction_dir (n : Bool) (s : State) : (neutralAction n s).dir = s.dir := by cases n <;> rfl
@[simp] theorem neutralAction_cd (n : Bool) (s : State) : (neutralAction n s).cd = s.cd := by cases n <;> rfl
@[simp] theorem neutralAction_wires (n : Bool) (s : State) : (neutralAction n s).wires = s.wires := by cases n <;> rfl
@[simp] theorem neutralAction_params (n : Bool) (s : State) : (neutralAction n s).params = s.params := by cases n <;> rfl
@[simp] theorem neutralAction_port (n : Bool) (s : State) : (neutralAction n s).port = s.port := by cases n <;> rfl

@[simp] theorem neutralAction_cmd (n : Bool) (s : State) :
    (neutralAction n s).cmd = if n then 0x100000000000#48 else s.cmd := by
  cases n <;> simp [neutralAction, sourceWord_ntl]

@[simp] theorem neutralAction_acts (n : Bool) (s : State) :
    (neutralAction n s).acts = s.acts ++ if n then [.emit 0x100000000000#48] else [] := by
  cases n <;> simp [neutralAction, sourceWord_ntl]

/-! ### The port -/

theorem take_of_illegal (s : State) (h : s.params.legal = false) : s.take = .error .badConfiguration := by
  simp [State.take, h]

theorem take_empty (s : State) (h : s.params.legal = true) (hp : s.port = []) : s.take = .ok none := by
  simp [State.take, h, hp]

theorem take_cons (s : State) (r : RawWord) (rest : List RawWord) (i : Instr) (h : s.params.legal = true)
    (hp : s.port = r :: rest) (hd : decode r = .ok i) : s.take = .ok (some (i, s.withPort rest)) := by
  simp [State.take, h, hp, hd]

theorem take_bad (s : State) (r : RawWord) (rest : List RawWord) (why : Reject) (h : s.params.legal = true)
    (hp : s.port = r :: rest) (hd : decode r = .error why) : s.take = .error (.badWord why) := by
  simp [State.take, h, hp, hd]

/-- Everything the port can give. -/
theorem take_cases (s : State) :
    (s.params.legal = false ∧ s.take = .error .badConfiguration) ∨
    (s.params.legal = true ∧ s.port = [] ∧ s.take = .ok none) ∨
    (∃ r rest why, s.params.legal = true ∧ s.port = r :: rest ∧ decode r = .error why ∧
      s.take = .error (.badWord why)) ∨
    (∃ r rest i, s.params.legal = true ∧ s.port = r :: rest ∧ decode r = .ok i ∧
      s.take = .ok (some (i, s.withPort rest))) := by
  cases hl : s.params.legal with
  | false => exact .inl ⟨rfl, take_of_illegal s hl⟩
  | true =>
    cases hp : s.port with
    | nil => exact .inr (.inl ⟨rfl, rfl, take_empty s hl hp⟩)
    | cons r rest =>
      cases hd : decode r with
      | error why => exact .inr (.inr (.inl ⟨r, rest, why, rfl, rfl, hd, take_bad s r rest why hl hp hd⟩))
      | ok i => exact .inr (.inr (.inr ⟨r, rest, i, rfl, rfl, hd, take_cons s r rest i hl hp hd⟩))

end Sys2Proof.Machine
end

