-- ==== Sys2Proof/Laws/Parameters.lean ====
section
/-! SUPPORT. The binary32 facts behind `±MAX_DUTY` (30_encoding.md R58, 41_sequencer.md R92) and what an admitted
configuration gives (00_scope.md R9). -/

namespace Sys2Proof

theorem F32.expField_eq (w : F32) : w.expField = w.toNat / 2 ^ 23 % 2 ^ 8 := by
  simp [F32.expField, BitVec.extractLsb'_toNat, Nat.shiftRight_eq_div_pow]

theorem F32.frac_eq (w : F32) : w.frac = w.toNat % 2 ^ 23 := by
  simp [F32.frac, BitVec.extractLsb'_toNat]

theorem F32.sign_eq (w : F32) : w.sign = decide (2 ^ 31 ≤ w.toNat) := by
  have := BitVec.msb_eq_decide w
  simpa [F32.sign, BitVec.msb_eq_getLsbD_last] using this

theorem F32.sign_neg (w : F32) : w.neg.sign = !w.sign := by
  simp [F32.neg, F32.sign]

theorem F32.expField_neg (w : F32) : w.neg.expField = w.expField := by
  rw [F32.expField, F32.expField]
  congr 1
  ext j hj
  simp only [F32.neg, BitVec.getElem_extractLsb', BitVec.getLsbD_xor]
  interval_cases j <;> simp

theorem F32.frac_neg (w : F32) : w.neg.frac = w.frac := by
  rw [F32.frac, F32.frac]
  congr 1
  ext j hj
  simp only [F32.neg, BitVec.getElem_extractLsb', BitVec.getLsbD_xor]
  interval_cases j <;> simp

/-- Flipping bit 31 negates the value exactly (30_encoding.md R58). -/
theorem F32.scaled_neg (w : F32) : w.neg.scaled = -w.scaled := by
  unfold F32.scaled F32.magnitude
  rw [F32.sign_neg, F32.expField_neg, F32.frac_neg]
  cases w.sign <;> simp

theorem F32.isFinite_neg (w : F32) : w.neg.isFinite = w.isFinite := by
  simp [F32.isFinite, F32.expField_neg]

theorem F32.isMaxDuty_iff (w : F32) :
    w.isMaxDuty = true ↔ w.isFinite = true ∧ 0 < w.scaled ∧ w.scaled ≤ 2 ^ 149 := by
  rw [F32.isMaxDuty, Bool.and_eq_true, Bool.and_eq_true, decide_eq_true_iff, decide_eq_true_iff, and_assoc]
  exact Iff.rfl

/-- The words 0x00000001 to 0x3F800000 are words of values in `0 < v ≤ 1.0`. -/
theorem F32.isMaxDuty_of_range (w : F32) (h1 : 1 ≤ w.toNat) (h2 : w.toNat ≤ 0x3F800000) : w.isMaxDuty = true := by
  have hs : w.sign = false := by rw [F32.sign_eq]; simp; omega
  have he := F32.expField_eq w
  have hf := F32.frac_eq w
  have hle : w.expField ≤ 127 := by omega
  have hsc : w.scaled = (w.magnitude : Int) := by simp [F32.scaled, hs]
  have hpos : 0 < w.magnitude := by
    unfold F32.magnitude
    split
    · omega
    · positivity
  have hone : w.magnitude ≤ 2 ^ 149 := by
    unfold F32.magnitude
    split
    · have : w.frac < 2 ^ 23 := by omega
      exact le_trans (le_of_lt this) (Nat.pow_le_pow_right (by decide) (by decide))
    · rcases Nat.lt_or_ge w.expField 127 with h | h
      · have hfr : 2 ^ 23 + w.frac ≤ 2 ^ 24 := by omega
        calc (2 ^ 23 + w.frac) * 2 ^ (w.expField - 1) ≤ 2 ^ 24 * 2 ^ 125 :=
              Nat.mul_le_mul hfr (Nat.pow_le_pow_right (by decide) (by omega))
          _ = 2 ^ 149 := by rw [← pow_add]
      · have h127 : w.expField = 127 := by omega
        have h0 : w.frac = 0 := by omega
        rw [h127, h0]; norm_num
  have hfin : w.isFinite = true := by simp [F32.isFinite]; omega
  simp only [F32.isMaxDuty, hfin, hsc, F32.scaledOne, Bool.true_and, Bool.and_eq_true, decide_eq_true_eq]
  exact ⟨by exact_mod_cast hpos, by exact_mod_cast hone⟩

/-- In an admitted configuration `M` is a finite word with `0 < MAX_DUTY ≤ 1.0`, open or not (00_scope.md R9(e)). -/
theorem Params.maxDutyWord_legal (p : Params) (h : p.legalMaxDuty = true) : p.maxDutyWord.isMaxDuty = true := by
  unfold Params.legalMaxDuty at h
  unfold Params.maxDutyWord
  cases hm : p.maxDuty with
  | none =>
    have hlt := Config.openMaxDutyIndex.isLt
    refine F32.isMaxDuty_of_range _ ?_ ?_ <;> simp only [BitVec.toNat_ofNat] <;>
      rw [Nat.mod_eq_of_lt (by omega)] <;> omega
  | some m => simpa [hm] using h

/-- Both drive duties can stand in a bus word: finite, not 0, in `[-1, 1]` (42_command_mux.md R120, R121). -/
theorem Params.duty_isDriveDuty (p : Params) (d : Bool) (h : p.legalMaxDuty = true) :
    (p.duty d).isDriveDuty = true := by
  have hm := Params.maxDutyWord_legal p h
  simp only [F32.isMaxDuty, Bool.and_eq_true, decide_eq_true_eq] at hm
  obtain ⟨⟨hf, hp⟩, ho⟩ := hm
  have hone : (0 : Int) < F32.scaledOne := by unfold F32.scaledOne; positivity
  cases d <;>
    simp only [Params.duty, F32.isDriveDuty, F32.isFinite_neg, F32.scaled_neg, hf, Bool.true_and, Bool.and_eq_true,
      decide_eq_true_eq, if_true, Bool.false_eq_true, if_false] <;>
    refine ⟨⟨?_, ?_⟩, ?_⟩ <;> omega

theorem Params.legal_iff (p : Params) : p.legal = true ↔
    p.legalThresholds = true ∧ p.legalArm = true ∧ p.legalPeriod = true ∧ p.legalTarget = true ∧
      p.legalMaxDuty = true ∧ p.legalCurrents = true := by
  simp [Params.legal, and_assoc]

end Sys2Proof
end

