-- ==== Sys2Proof/Laws/PerInstr.lean ====
section
/-! SUPPORT. For every operation, its encoded word matches its row of opcode_table.json: the row's `match` under its
`mask`. -/

namespace Sys2Proof.Laws.TableRow

/-- A row's `match` and `mask`. -/
structure Row where
  pattern : Nat
  mask : Nat
deriving DecidableEq, Repr

/-- The UOP7 row with the given match; every one has mask 0x7F. -/
def uopRow (pattern : Nat) : Row := ⟨pattern, 0x7F⟩

/-- The rows of opcode_table.json. -/
def rowOf : Instr → Row
  | .step _ => uopRow 0x00
  | .reset => uopRow 0x04
  | .dbcUpdateP => uopRow 0x08
  | .dbcUpdateA => uopRow 0x09
  | .dbcUpdateB => uopRow 0x0A
  | .dbcCmpP => uopRow 0x0C
  | .dbcCmpA => uopRow 0x0D
  | .dbcCmpB => uopRow 0x0E
  | .dbcClearP => uopRow 0x10
  | .dbcClearA => uopRow 0x11
  | .dbcClearB => uopRow 0x12
  | .seqToggle => uopRow 0x14
  | .seqDriveDuty => uopRow 0x18
  | .seqArm => uopRow 0x1C
  | .seqTick => uopRow 0x20
  | .seqNeutral => uopRow 0x24
  | .muxEmit _ => uopRow 0x28
  | .muxWait _ => uopRow 0x2C
  | .cmdNone => ⟨0x000000000000, 0xFFFFFFFFFFFF⟩
  | .cmdLocalDuty _ => ⟨0x100000000000, 0xFFFF00000000⟩
  | .cmdBusDuty _ _ => ⟨0x200000000000, 0xFF0000000000⟩
  | .cmdBusCurrent _ _ => ⟨0x300000000000, 0xFF0000000000⟩
  | .cmdBusCurrentBrake _ _ => ⟨0x400000000000, 0xFF0000000000⟩

/-- The word under the mask is the match. -/
def Row.matchesWord (r : Row) : RawWord → Bool
  | .uop b => b &&& BitVec.ofNat 16 r.mask == BitVec.ofNat 16 r.pattern
  | .cmd w => w &&& BitVec.ofNat 48 r.mask == BitVec.ofNat 48 r.pattern

/-- The operation's word matches its row. -/
def Statement (i : Instr) : Prop := (rowOf i).matchesWord (encode i) = true

/-- A command word's top byte is its KIND and a zero RSVD. -/
theorem top_byte (k : BitVec 4) (t : BitVec 8) (v : F32) :
    cmdAssemble k t v &&& 0xFF0000000000#48 = k ++ 0#44 := by
  apply BitVec.eq_of_getLsbD_eq
  intro j hj
  simp only [cmdAssemble, BitVec.getLsbD_and, BitVec.getLsbD_append]
  interval_cases j <;> simp

/-- With TARGET 0, so are the top two bytes. -/
theorem top_bytes (k : BitVec 4) (v : F32) :
    cmdAssemble k 0#8 v &&& 0xFFFF00000000#48 = k ++ 0#44 := by
  apply BitVec.eq_of_getLsbD_eq
  intro j hj
  simp only [cmdAssemble, BitVec.getLsbD_and, BitVec.getLsbD_append]
  interval_cases j <;> simp

theorem step (siw : Siw) : Statement (.step siw) := by
  unfold Statement; revert siw; decide
theorem reset : Statement .reset := by unfold Statement; decide
theorem dbcUpdateP : Statement .dbcUpdateP := by unfold Statement; decide
theorem dbcUpdateA : Statement .dbcUpdateA := by unfold Statement; decide
theorem dbcUpdateB : Statement .dbcUpdateB := by unfold Statement; decide
theorem dbcCmpP : Statement .dbcCmpP := by unfold Statement; decide
theorem dbcCmpA : Statement .dbcCmpA := by unfold Statement; decide
theorem dbcCmpB : Statement .dbcCmpB := by unfold Statement; decide
theorem dbcClearP : Statement .dbcClearP := by unfold Statement; decide
theorem dbcClearA : Statement .dbcClearA := by unfold Statement; decide
theorem dbcClearB : Statement .dbcClearB := by unfold Statement; decide
theorem seqToggle : Statement .seqToggle := by unfold Statement; decide
theorem seqDriveDuty : Statement .seqDriveDuty := by unfold Statement; decide
theorem seqArm : Statement .seqArm := by unfold Statement; decide
theorem seqTick : Statement .seqTick := by unfold Statement; decide
theorem seqNeutral : Statement .seqNeutral := by unfold Statement; decide
theorem muxEmit (src : Source) : Statement (.muxEmit src) := by unfold Statement; cases src <;> decide
theorem muxWait (sel : WaitSel) : Statement (.muxWait sel) := by unfold Statement; cases sel <;> decide
theorem cmdNone : Statement .cmdNone := by unfold Statement; decide
theorem cmdLocalDuty (value : F32) : Statement (.cmdLocalDuty value) := by
  simp only [Statement, Row.matchesWord, rowOf, encode, beq_iff_eq]; exact top_bytes _ _
theorem cmdBusDuty (target : BitVec 8) (value : F32) : Statement (.cmdBusDuty target value) := by
  simp only [Statement, Row.matchesWord, rowOf, encode, beq_iff_eq]; exact top_byte _ _ _
theorem cmdBusCurrent (target : BitVec 8) (value : F32) : Statement (.cmdBusCurrent target value) := by
  simp only [Statement, Row.matchesWord, rowOf, encode, beq_iff_eq]; exact top_byte _ _ _
theorem cmdBusCurrentBrake (target : BitVec 8) (value : F32) : Statement (.cmdBusCurrentBrake target value) := by
  simp only [Statement, Row.matchesWord, rowOf, encode, beq_iff_eq]; exact top_byte _ _ _

end Sys2Proof.Laws.TableRow
end

