-- ==== Sys2Proof/Laws/Step.lean ====
section
/-! SUPPORT. What one machine step can do, and the fields of the state after a STEP. -/

namespace Sys2Proof.Machine

/-! ### The machine's step -/

/-- Whenever a step answers a next state, it held or it ran the oldest presented operation. -/
theorem step_next_cases {s t : State} (h : step s = .next t) :
    (s.params.legal = true ∧ s.port = [] ∧ t = s) ∨
    (∃ r rest i, s.params.legal = true ∧ s.port = r :: rest ∧ decode r = .ok i ∧
      exec i (s.withPort rest) = .next t) := by
  rcases take_cases s with ⟨_, ht⟩ | ⟨hl, hp, ht⟩ | ⟨r, rest, why, _, _, _, ht⟩ | ⟨r, rest, i, hl, hp, hd, ht⟩
  · simp [step, ht] at h
  · simp only [step, ht, Host.Outcome.next.injEq] at h
    exact .inl ⟨hl, hp, h.symm⟩
  · simp [step, ht] at h
  · simp only [step, ht] at h
    exact .inr ⟨r, rest, i, hl, hp, hd, h⟩

/-! ### The fields of `stepState` -/

section
variable (siw : Siw) (s : State)

@[simp] theorem stepState_cntP :
    (stepState siw s).cntP = clearedCount ((stepWires siw s).fire .p) (stepWires siw s).uP := rfl
@[simp] theorem stepState_cntA :
    (stepState siw s).cntA = clearedCount ((stepWires siw s).fire .a) (stepWires siw s).uA := rfl
@[simp] theorem stepState_cntB :
    (stepState siw s).cntB = clearedCount ((stepWires siw s).fire .b) (stepWires siw s).uB := rfl
@[simp] theorem stepState_dir : (stepState siw s).dir = (stepWires siw s).dir1 := rfl
@[simp] theorem stepState_cd : (stepState siw s).cd = (stepWires siw s).cd2 := rfl
@[simp] theorem stepState_cmd :
    (stepState siw s).cmd = cmdAfter (stepActs s.params (stepWires siw s)) s.cmd := rfl
@[simp] theorem stepState_ldr :
    (stepState siw s).ldr = ldrAfter (stepActs s.params (stepWires siw s)) s.ldr := rfl
@[simp] theorem stepState_acts : (stepState siw s).acts = stepActs s.params (stepWires siw s) := rfl
@[simp] theorem stepState_wires : (stepState siw s).wires = stepWires siw s := rfl
@[simp] theorem stepState_params : (stepState siw s).params = s.params := rfl
@[simp] theorem stepState_port : (stepState siw s).port = s.port := rfl

/-! ### The wires of a step -/

@[simp] theorem stepWires_sP : (stepWires siw s).sP = sample siw .p := rfl
@[simp] theorem stepWires_sA : (stepWires siw s).sA = sample siw .a := rfl
@[simp] theorem stepWires_sB : (stepWires siw s).sB = sample siw .b := rfl
@[simp] theorem stepWires_ext : (stepWires siw s).ext = extBit siw := rfl

/-- `u_i` of a step, whichever the circuit. -/
theorem stepWires_u (i : DbcInst) :
    (stepWires siw s).u i = updatedCount s.params (s.cnt i) (sample siw i) := by cases i <;> rfl

/-- `hit_i` of a step (40_debounce.md R72). -/
theorem stepWires_hit (i : DbcInst) :
    (stepWires siw s).hit i = comparator s.params i ((stepWires siw s).u i) := by cases i <;> rfl

/-- `CNT_i` after a step (40_debounce.md R73). -/
theorem stepState_cnt (i : DbcInst) :
    (stepState siw s).cnt i = clearedCount ((stepWires siw s).fire i) ((stepWires siw s).u i) := by cases i <;> rfl

/-- `dir1` of a step (41_sequencer.md R90). -/
theorem stepWires_dir1 :
    (stepWires siw s).dir1 = toggledDir ((stepWires siw s).fire .p) s.dir := rfl

/-- `cd2` of a step (41_sequencer.md R93, R94). -/
theorem stepWires_cd2 :
    (stepWires siw s).cd2 = tickedCount s.params (armedCount s.params ((stepWires siw s).fire .p) s.cd) := rfl

/-- `neutral` of a step (41_sequencer.md R95). -/
theorem stepWires_neutral : (stepWires siw s).neutral = isNeutral (stepWires siw s).cd2 := rfl

end

/-! ### The words and waits of a step -/

/-- The words a step emits, in slot order (43_step.md R131). -/
theorem emits_stepActs (p : Params) (w : Wires) :
    emits (stepActs p w) =
      (if w.fire .p then [sourceWord p w.dir1 .tdl, sourceWord p w.dir1 .tdb] else []) ++
      (if w.fire .a then [sourceWord p w.dir1 .cur] else []) ++
      (if w.fire .b then [sourceWord p w.dir1 .brk] else []) ++
      (if w.neutral then [sourceWord p w.dir1 .ntl] else []) := by
  simp only [stepActs, actsPrimary, actsAuxA, actsAuxB, actsNeutral, emits_append]
  split <;> split <;> split <;> split <;> rfl

/-- The waits a step requests, in slot order (43_step.md R131, R138). -/
theorem waits_stepActs (p : Params) (w : Wires) :
    waits (stepActs p w) =
      (if w.fire .p then [p.settleMs] else []) ++ (if w.fire .a then [p.settleMs] else []) ++
      (if w.fire .b then [p.settleMs] else []) ++ [p.periodMs] := by
  simp only [stepActs, actsPrimary, actsAuxA, actsAuxB, actsNeutral, waits_append]
  split <;> split <;> split <;> split <;> rfl

/-- Every word a step emits is the word of one of the five sources (42_command_mux.md R110). -/
theorem mem_emits_stepActs {p : Params} {w : Wires} {x : CmdWord} (h : x ∈ emits (stepActs p w)) :
    ∃ src, x = sourceWord p w.dir1 src := by
  rw [emits_stepActs] at h
  simp only [List.mem_append] at h
  rcases h with ((h | h) | h) | h <;> split at h <;> simp at h
  · rcases h with h | h
    · exact ⟨_, h⟩
    · exact ⟨_, h⟩
  · exact ⟨_, h⟩
  · exact ⟨_, h⟩
  · exact ⟨_, h⟩

/-- `LDR` after a step: the neutral if the step emits it, else the new direction's duty if it toggles, else the old value. -/
theorem ldrAfter_stepActs (p : Params) (w : Wires) (v : F32) :
    ldrAfter (stepActs p w) v =
      if w.neutral then F32.neutral else if w.fire .p then p.duty w.dir1 else v := by
  unfold ldrAfter
  rw [emits_stepActs]
  cases w.fire .p <;> cases w.fire .a <;> cases w.fire .b <;> cases w.neutral <;> simp [sourceValue]

/-- A step that neither fires nor is neutral emits nothing, and no other (42_command_mux.md R116). -/
theorem emits_stepActs_nil (p : Params) (w : Wires) :
    emits (stepActs p w) = [] ↔
      w.fire .p = false ∧ w.fire .a = false ∧ w.fire .b = false ∧ w.neutral = false := by
  rw [emits_stepActs]
  cases w.fire .p <;> cases w.fire .a <;> cases w.fire .b <;> cases w.neutral <;> simp

/-! ### Counters -/

/-- One update moves a count by at most one, towards the sample (40_debounce.md R71). -/
theorem updatedCount_le_succ (p : Params) (c : Nat) (b : Bool) : updatedCount p c b ≤ c + 1 := by
  cases b
  · simp only [updatedCount, satDec_eq_pred]; simp; omega
  · simpa [updatedCount] using satInc_le_succ p.cntW c

/-- A cleared or stored count is at most the threshold (10_state.md R24). -/
theorem stepState_cnt_le (siw : Siw) (s : State) (i : DbcInst) :
    (stepState siw s).cnt i ≤ threshold s.params i := by
  rw [stepState_cnt]
  cases hf : (stepWires siw s).fire i with
  | true => simp [clearedCount]
  | false =>
    have hh : (stepWires siw s).hit i = false := by
      cases i <;> simp_all [Wires.fire, Wires.hit]
    rw [stepWires_hit] at hh
    simp only [clearedCount, Bool.false_eq_true, if_false]
    simpa [comparator] using hh

/-! ### The registers after the operations that are not a step -/

/-- `CNT_i` of a state in range is at most its threshold. -/
theorem inRange_cnt {s : State} (h : s.inRange = true) (i : DbcInst) : s.cnt i ≤ threshold s.params i := by
  simp only [State.inRange, Bool.and_eq_true, decide_eq_true_eq] at h
  cases i <;> simp [threshold] <;> omega

theorem inRange_iff (s : State) : s.inRange = true ↔
    (∀ i, s.cnt i ≤ threshold s.params i) ∧ s.cd ≤ s.params.armMs := by
  constructor
  · intro h
    refine ⟨fun i => inRange_cnt h i, ?_⟩
    simp only [State.inRange, Bool.and_eq_true, decide_eq_true_eq] at h
    exact h.2
  · rintro ⟨hc, hd⟩
    have := hc .p; have := hc .a; have := hc .b
    simp_all [State.inRange, threshold]

end Sys2Proof.Machine
end

