-- ==== Sys2Proof/Laws/Slots.lean ====
section
/-! SUPPORT. Running slots one by one, and performing an action list one action at a time. -/

namespace Sys2Proof.Machine

/-! ### Action lists, performed one by one -/

/-- Emit and wait in the order of a list. -/
def State.perform : List Action → State → State
  | [], s => s
  | .emit w :: rest, s => State.perform rest (s.emit w)
  | .wait ms :: rest, s => State.perform rest (s.wait ms)

@[simp] theorem perform_nil (s : State) : State.perform [] s = s := rfl

@[simp] theorem perform_emit (w : CmdWord) (rest : List Action) (s : State) :
    State.perform (.emit w :: rest) s = State.perform rest (s.emit w) := rfl

@[simp] theorem perform_wait (ms : Nat) (rest : List Action) (s : State) :
    State.perform (.wait ms :: rest) s = State.perform rest (s.wait ms) := rfl

theorem perform_append (l₁ l₂ : List Action) (s : State) :
    State.perform (l₁ ++ l₂) s = State.perform l₂ (State.perform l₁ s) := by
  induction l₁ generalizing s with
  | nil => rfl
  | cons a l ih => cases a <;> simp [ih]

theorem cmdAfter_cons_emit (w : CmdWord) (l : List Action) (c : CmdWord) :
    cmdAfter (.emit w :: l) c = cmdAfter l w := by
  unfold cmdAfter; rw [emits_emit]; cases emits l <;> rfl

theorem ldrAfter_cons_emit (w : CmdWord) (l : List Action) (v : F32) :
    ldrAfter (.emit w :: l) v = ldrAfter l (if isLocalDuty w then cmdValue w else v) := by
  unfold ldrAfter
  rw [emits_emit]
  cases h : isLocalDuty w
  · simp [List.filter, h]
  · simp only [List.filter, h, List.map_cons, if_true]
    cases List.map cmdValue (List.filter isLocalDuty (emits l)) <;> rfl

/-- Performed one by one, a list leaves in CMD and LDR what 42_command_mux.md R116 and R117 read off the whole list. -/
theorem perform_eq (l : List Action) (s : State) :
    State.perform l s =
      { s with acts := s.acts ++ l, cmd := cmdAfter l s.cmd, ldr := ldrAfter l s.ldr } := by
  induction l generalizing s with
  | nil => simp [cmdAfter, ldrAfter]
  | cons a l ih =>
    cases a with
    | emit w => rw [perform_emit, ih, cmdAfter_cons_emit, ldrAfter_cons_emit]; simp [State.emit]
    | wait ms => rw [perform_wait, ih]; simp [State.wait, cmdAfter, ldrAfter]

/-! ### Slots -/

@[simp] theorem runSlots_nil (s : State) : runSlots [] s = .next s := rfl

/-- A slot that always runs, and completes. -/
theorem runSlots_always {op : Instr} {s t : State} (rest : List Slot) (h : exec op s = .next t) :
    runSlots (⟨.always, op⟩ :: rest) s = runSlots rest t := by
  simp only [runSlots, runSlot, SlotGuard.holds, if_true, h, andThen]

/-- A guarded slot whose circuit fired, and completes. -/
theorem runSlots_fired {i : DbcInst} {op : Instr} {s t : State} (rest : List Slot) (hf : s.wires.fire i = true)
    (h : exec op s = .next t) : runSlots (⟨.ifFire i, op⟩ :: rest) s = runSlots rest t := by
  simp only [runSlots, runSlot, SlotGuard.holds, hf, if_true, h, andThen]

/-- A guarded slot whose circuit did not fire. -/
theorem runSlots_skipped {i : DbcInst} {op : Instr} {s : State} (rest : List Slot) (hf : s.wires.fire i = false) :
    runSlots (⟨.ifFire i, op⟩ :: rest) s = runSlots rest s := by
  simp only [runSlots, runSlot, SlotGuard.holds, hf, Bool.false_eq_true, if_false, andThen]

/-- Operations run one after another, the first completing. -/
theorem execAll_cons {i : Instr} {s t : State} (rest : List Instr) (h : exec i s = .next t) :
    execAll (i :: rest) s = execAll rest t := by
  simp only [execAll, h, andThen]

end Sys2Proof.Machine
end

