-- ==== Sys2Proof/Laws/Trace.lean ====
section
/-! SUPPORT. Running a trace, one operation at a time. -/

namespace Sys2Proof.Machine

@[simp] theorem observe_acts (s : State) : s.observe.acts = s.acts := rfl
@[simp] theorem observe_cmd (s : State) : s.observe.cmd = s.cmd := rfl
@[simp] theorem observe_ldr (s : State) : s.observe.ldr = s.ldr := rfl

@[simp] theorem runOps_nil (s : State) : runOps [] s = .next ⟨[], s⟩ := rfl

/-- A run goes on from the state its first operation leaves. -/
theorem runOps_cons {i : Instr} {rest : List Instr} {s t : State} {r : Run}
    (h : step (s.presentFirst (encode i)) = .next t) (hr : runOps rest t = .next r) :
    runOps (i :: rest) s = .next ⟨t.observe :: r.observed, r.final⟩ := by
  unfold runOps; rw [h]; dsimp only; rw [hr]

/-- A trace's operations are STEPs and RESETs. -/
theorem expandTrace_environment (lines : List TraceLine) :
    ∀ i ∈ expandTrace lines, i = .reset ∨ ∃ siw, i = .step siw := by
  intro i hi
  simp only [expandTrace, List.mem_flatMap] at hi
  obtain ⟨l, _, hl⟩ := hi
  cases l <;> simp [TraceLine.expand] at hl
  · exact .inl hl
  · exact .inr ⟨_, hl⟩
  · exact .inr ⟨_, hl.2⟩
  · exact .inr ⟨_, hl.2⟩
  · exact .inr ⟨_, hl⟩

end Sys2Proof.Machine
end

