-- ==== Sys2Proof/Tests/Slice0.lean ====
section
/-! SUPPORT. The model's own tests: the WellFormed smoke, words written out from the spec's encodings, one step per operation
from the worked values of the spec, and a witness for the hypotheses of each statement. Duty values use the example
MAX_DUTY = 0.5 of 95_test_vectors.md, word 0x3F000000. -/

namespace Sys2Proof.Tests

open Sys2Proof Sys2Proof.Machine

/-! ### Helpers -/

/-- The default configuration with the example MAX_DUTY. -/
def cfg : Params := { Params.default with maxDuty := some 0x3F000000#32 }

/-- A state written as 95_test_vectors.md writes it. -/
def mk (cntP cntA cntB : Nat) (dir : Bool) (cd : Nat) : State :=
  { State.reset with params := cfg, cntP := cntP, cntA := cntA, cntB := cntB, dir := dir, cd := cd }

/-- A state from which one operation of a slot runs: its wires driven by hand. -/
def wired (w : Wires) : State := { mk 3 3 3 false 3120 with wires := w }

/-- The next state, if there is one. -/
def ran (o : Host.Outcome State Fault Refusal) : Option State :=
  match o with
  | .next s => some s
  | .fault _ => none
  | .refused _ => none

/-- The refusal, if there is one. -/
def refusal (o : Host.Outcome State Fault Refusal) : Option Refusal :=
  match o with
  | .next _ => none
  | .fault _ => none
  | .refused r => some r

/-- One view of the next state. -/
def see {α : Type} (o : Host.Outcome State Fault Refusal) (f : State → α) : Option α := (ran o).map f

/-- (CNT_P, CNT_A, CNT_B, DIR, CD). -/
def regs (s : State) : Nat × Nat × Nat × Bool × Nat := (s.cntP, s.cntA, s.cntB, s.dir, s.cd)

/-- CMD and LDR. -/
def latched (s : State) : CmdWord × F32 := (s.cmd, s.ldr)

/-! ### WellFormed smoke: for each check an ill-formed term, refused (00_scope.md R9; 30_encoding.md R56, R58, R63) -/

theorem test_wf_default : Params.WellFormed cfg ∧ Params.WellFormed Params.default := by decide
theorem test_wf_threshold_p : ¬ Params.WellFormed { cfg with nP := 255 } ∧ Params.WellFormed { cfg with nP := 254 } := by decide
theorem test_wf_threshold_a : ¬ Params.WellFormed { cfg with nA := 255 } := by decide
theorem test_wf_threshold_b : ¬ Params.WellFormed { cfg with nB := 255 } := by decide
theorem test_wf_arm : ¬ Params.WellFormed { cfg with armMs := 0 } ∧ ¬ Params.WellFormed { cfg with armMs := 16384 } := by decide
theorem test_wf_period : ¬ Params.WellFormed { cfg with periodMs := 0 } ∧ ¬ Params.WellFormed { cfg with periodMs := 16384 } := by decide
theorem test_wf_target : ¬ Params.WellFormed { cfg with targetId := 256 } ∧ Params.WellFormed { cfg with targetId := 255 } := by decide
theorem test_wf_max_duty_zero : ¬ Params.WellFormed { cfg with maxDuty := some 0x00000000#32 } := by decide
theorem test_wf_max_duty_nan : ¬ Params.WellFormed { cfg with maxDuty := some 0x7FC00000#32 } := by decide
theorem test_wf_max_duty_above_one : ¬ Params.WellFormed { cfg with maxDuty := some 0x3F800001#32 } ∧
    Params.WellFormed { cfg with maxDuty := some 0x3F800000#32 } := by decide
theorem test_wf_max_duty_negative : ¬ Params.WellFormed { cfg with maxDuty := some 0xBF000000#32 } := by decide
theorem test_wf_current_a : ¬ Params.WellFormed { cfg with curA := 0x7F800000#32 } := by decide
theorem test_wf_current_b : ¬ Params.WellFormed { cfg with curB := 0x7FC00000#32 } := by decide
theorem test_wf_local_duty : ¬ Instr.WellFormed (.cmdLocalDuty 0x80000000#32) ∧
    ¬ Instr.WellFormed (.cmdLocalDuty 0x7FC00000#32) ∧ Instr.WellFormed (.cmdLocalDuty 0x00000000#32) := by decide
theorem test_wf_bus_duty : ¬ Instr.WellFormed (.cmdBusDuty 0x63#8 0x00000000#32) ∧
    ¬ Instr.WellFormed (.cmdBusDuty 0x63#8 0x40000000#32) ∧ Instr.WellFormed (.cmdBusDuty 0x63#8 0xBF000000#32) := by decide
theorem test_wf_bus_current : ¬ Instr.WellFormed (.cmdBusCurrent 0x63#8 0x7F800000#32) := by decide
theorem test_wf_bus_current_brake : ¬ Instr.WellFormed (.cmdBusCurrentBrake 0x63#8 0x7FC00000#32) := by decide
theorem test_wf_trace_counts : ¬ TraceLine.WellFormed (.idle 0) ∧ ¬ TraceLine.WellFormed (.hold 0x6#4 0) ∧
    TraceLine.WellFormed (.idle 1) := by decide

/-! ### Decoding: words written out from 30_encoding.md R55, R56, R60, as opcode_table.json numbers them -/

theorem test_decode_step : decodeTableWord 8 0b0000000 = some (.step 0x0#4) ∧
    (decode (.uop 0b0000111000000000#16)).toOption = some (.step 0xE#4) := by decide
theorem test_decode_reset : decodeTableWord 8 0b0000100 = some .reset := by decide
theorem test_decode_dbc_update : decodeTableWord 8 0b0001000 = some .dbcUpdateP ∧
    decodeTableWord 8 0b0001001 = some .dbcUpdateA ∧ decodeTableWord 8 0b0001010 = some .dbcUpdateB := by decide
theorem test_decode_dbc_cmp : decodeTableWord 8 0b0001100 = some .dbcCmpP ∧
    decodeTableWord 8 0b0001101 = some .dbcCmpA ∧ decodeTableWord 8 0b0001110 = some .dbcCmpB := by decide
theorem test_decode_dbc_clear : decodeTableWord 8 0b0010000 = some .dbcClearP ∧
    decodeTableWord 8 0b0010001 = some .dbcClearA ∧ decodeTableWord 8 0b0010010 = some .dbcClearB := by decide
theorem test_decode_seq : decodeTableWord 8 0b0010100 = some .seqToggle ∧
    decodeTableWord 8 0b0011000 = some .seqDriveDuty ∧ decodeTableWord 8 0b0011100 = some .seqArm ∧
    decodeTableWord 8 0b0100000 = some .seqTick ∧ decodeTableWord 8 0b0100100 = some .seqNeutral := by decide
theorem test_decode_mux_emit : decodeTableWord 8 0b0101000 = some (.muxEmit .tdl) ∧
    (decode (.uop 0b0000010000101000#16)).toOption = some (.muxEmit .ntl) := by decide
theorem test_decode_mux_wait : decodeTableWord 8 0b0101100 = some (.muxWait .settle) ∧
    (decode (.uop 0b0000000100101100#16)).toOption = some (.muxWait .period) := by decide
theorem test_decode_cmd_none : decodeTableWord 48 0x000000000000 = some .cmdNone := by decide
theorem test_decode_cmd_local_duty :
    decodeTableWord 48 0x10003F000000 = some (.cmdLocalDuty 0x3F000000#32) := by decide
theorem test_decode_cmd_bus_duty :
    decodeTableWord 48 0x2063BF000000 = some (.cmdBusDuty 0x63#8 0xBF000000#32) := by decide
theorem test_decode_cmd_bus_current :
    decodeTableWord 48 0x30633F800000 = some (.cmdBusCurrent 0x63#8 0x3F800000#32) := by decide
theorem test_decode_cmd_bus_current_brake :
    decodeTableWord 48 0x40633F800000 = some (.cmdBusCurrentBrake 0x63#8 0x3F800000#32) := by decide
theorem test_decode_reserved : decodeTableWord 8 0b0110000 = none ∧ decodeTableWord 8 0b1111100 = none ∧
    decodeTableWord 8 0b0001011 = none ∧ decodeTableWord 8 0b0000101 = none ∧
    decodeTableWord 48 0x506300000000 = none ∧ decodeTableWord 48 0x216300000000 = none ∧
    decodeTableWord 48 0x100100000000 = none := by decide

/-! ### One step per operation -/

/-- 95_test_vectors.md 2.5, SIW 0x1, from reset. -/
theorem test_step_plain : see (step ((mk 0 0 0 false 0).withFetchWord 16 0x0100)) regs = some (0, 1, 1, false, 0) := by
  decide
/-- 95_test_vectors.md P4 step 6, from the state its steps 1 to 5 leave. -/
theorem test_step_all_fire : see (exec (.step 0x8#4) (mk 5 5 5 false 0)) (fun t => (regs t, t.acts)) =
    some ((0, 0, 0, true, 7990),
      [.emit 0x10003F000000#48, .emit 0x20633F000000#48, .wait 500, .emit 0x30633F800000#48, .wait 500,
        .emit 0x40633F800000#48, .wait 500, .wait 10]) := by decide
/-- 95_test_vectors.md 2.4. -/
theorem test_reset :
    let s := { mk 3 2 1 true 70 with cmd := 0x30633F800000#48, ldr := 0x3F000000#32, acts := [.wait 10] }
    see (exec .reset s) regs = some (0, 0, 0, false, 0) ∧
    see (exec .reset s) latched = some (0x000000000000#48, 0x00000000#32) ∧ see (exec .reset s) (·.acts) = some [] := by
  decide
/-- 40_debounce.md R70, the example: 3 and a 1 gives 4, 3 and a 0 gives 2. -/
theorem test_dbc_update_p : see (exec .dbcUpdateP (wired { Wires.zero with sP := true })) (·.wires.uP) = some 4 ∧
    see (exec .dbcUpdateP (wired Wires.zero)) (·.wires.uP) = some 2 := by decide
/-- 95_test_vectors.md D14: the counter saturates at 255. -/
theorem test_dbc_update_a : see (exec .dbcUpdateA { wired { Wires.zero with sA := true } with cntA := 255 })
    (·.wires.uA) = some 255 := by decide
/-- 95_test_vectors.md D1, of B: 0 stays at 0. -/
theorem test_dbc_update_b : see (exec .dbcUpdateB { wired Wires.zero with cntB := 0 }) (·.wires.uB) = some 0 := by decide
/-- 95_test_vectors.md D3, D4: 10 is not above 10, 11 is. -/
theorem test_dbc_cmp_p : see (exec .dbcCmpP (wired { Wires.zero with uP := 10 })) (·.wires.hitP) = some false ∧
    see (exec .dbcCmpP (wired { Wires.zero with uP := 11 })) (·.wires.hitP) = some true := by decide
/-- 40_debounce.md R72, the example. -/
theorem test_dbc_cmp_a : see (exec .dbcCmpA (wired { Wires.zero with uA := 5 })) (·.wires.hitA) = some false ∧
    see (exec .dbcCmpA (wired { Wires.zero with uA := 6 })) (·.wires.hitA) = some true := by decide
/-- 95_test_vectors.md D12, D13. -/
theorem test_dbc_cmp_b : see (exec .dbcCmpB (wired { Wires.zero with uB := 6 })) (·.wires.hitB) = some true ∧
    see (exec .dbcCmpB (wired { Wires.zero with uB := 1 })) (·.wires.hitB) = some false := by decide
/-- 40_debounce.md R73, the example with EXT. -/
theorem test_dbc_clear_p : see (exec .dbcClearP (wired { Wires.zero with uP := 5, ext := true })) (·.cntP) = some 0 ∧
    see (exec .dbcClearP (wired { Wires.zero with uP := 5 })) (·.cntP) = some 5 := by decide
/-- 95_test_vectors.md D9, D10: EXT does not reach A. -/
theorem test_dbc_clear_a : see (exec .dbcClearA (wired { Wires.zero with uA := 5, ext := true })) (·.cntA) = some 5 ∧
    see (exec .dbcClearA (wired { Wires.zero with uA := 6, hitA := true })) (·.cntA) = some 0 := by decide
/-- 95_test_vectors.md D12, D13: EXT does not reach B. -/
theorem test_dbc_clear_b : see (exec .dbcClearB (wired { Wires.zero with uB := 6, hitB := true })) (·.cntB) = some 0 ∧
    see (exec .dbcClearB (wired { Wires.zero with uB := 1, ext := true })) (·.cntB) = some 1 := by decide
/-- 41_sequencer.md R90, the example. -/
theorem test_seq_toggle :
    see (exec .seqToggle (wired { Wires.zero with hitP := true, ext := true })) (fun t => (t.dir, t.wires.dir1)) =
      some (true, true) ∧
    see (exec .seqToggle (wired { Wires.zero with dir1 := true })) (fun t => (t.dir, t.wires.dir1)) =
      some (false, false) := by decide
/-- 41_sequencer.md R92, the example. -/
theorem test_seq_drive_duty :
    see (exec .seqDriveDuty (wired { Wires.zero with dir1 := true })) (·.wires.duty) = some 0x3F000000#32 ∧
    see (exec .seqDriveDuty (wired Wires.zero)) (·.wires.duty) = some 0xBF000000#32 := by decide
/-- 41_sequencer.md R93, the example. -/
theorem test_seq_arm : see (exec .seqArm (wired { Wires.zero with ext := true })) (·.wires.cd1) = some 8000 ∧
    see (exec .seqArm (wired Wires.zero)) (·.wires.cd1) = some 3120 := by decide
/-- 41_sequencer.md R94, the examples. -/
theorem test_seq_tick : see (exec .seqTick (wired { Wires.zero with cd1 := 8000 })) (·.cd) = some 7990 ∧
    see (exec .seqTick (wired { Wires.zero with cd1 := 10 })) (fun t => (t.cd, t.wires.neutral)) = some (0, true) := by
  decide
/-- 41_sequencer.md R95, the example. -/
theorem test_seq_neutral :
    see (exec .seqNeutral (wired Wires.zero)) (fun t => (t.wires.neutral, t.acts)) =
      some (true, [.emit 0x100000000000#48]) ∧
    see (exec .seqNeutral (wired { Wires.zero with cd2 := 7990 })) (fun t => (t.wires.neutral, t.acts)) =
      some (false, []) := by decide
/-- 42_command_mux.md R121 and R115, the examples. -/
theorem test_mux_emit :
    see (exec (.muxEmit .tdb) (wired { Wires.zero with dir1 := true })) (·.acts) = some [.emit 0x20633F000000#48] ∧
    see (exec (.muxEmit .cur) (wired Wires.zero)) (·.acts) = some [.emit 0x30633F800000#48] := by decide
/-- 42_command_mux.md R118, the example's waits. -/
theorem test_mux_wait : see (exec (.muxWait .settle) (mk 0 0 0 false 0)) (·.acts) = some [.wait 500] ∧
    see (exec (.muxWait .period) (mk 0 0 0 false 0)) (·.acts) = some [.wait 10] := by decide
/-- 30_encoding.md R59. -/
theorem test_cmd_none : refusal (step (State.reset.withFetchWord 48 0x000000000000)) = some .noneEmitted := by decide
/-- 42_command_mux.md R120, R116, R117. -/
theorem test_cmd_local_duty : see (step (State.reset.withFetchWord 48 0x10003F000000)) latched =
    some (0x10003F000000#48, 0x3F000000#32) := by decide
/-- 42_command_mux.md R121, R116, R117: a bus word leaves LDR. -/
theorem test_cmd_bus_duty : see (step (State.reset.withFetchWord 48 0x20633F000000)) latched =
    some (0x20633F000000#48, 0x00000000#32) := by decide
/-- 42_command_mux.md R122, R116. -/
theorem test_cmd_bus_current : see (step (State.reset.withFetchWord 48 0x30633F800000)) (·.cmd) =
    some 0x30633F800000#48 := by decide
/-- 42_command_mux.md R123, R116. -/
theorem test_cmd_bus_current_brake : see (step (State.reset.withFetchWord 48 0x40633F800000)) (·.acts) =
    some [.emit 0x40633F800000#48] := by decide
/-- 60_exceptions.md R151(a): a configuration outside 00_scope.md R9 is refused. -/
theorem test_bad_configuration :
    refusal (step { mk 0 0 0 false 0 with params := { cfg with nP := 255 } }) = some .badConfiguration := by decide

/-! ### Traces and emission checks -/

/-- 30_encoding.md R62, R63: the examples, a comment, a pseudo-instruction; a count of 0 and a wrong order are refused. -/
theorem test_trace_lines :
    (parseTrace "RESET ; rst\nHOLD P 12\nSTEP PABX".toList).toOption =
      some [.reset, .hold 0x6#4 12, .step 0x8#4] ∧
    (parseTrace "STEP PX\nFLAP\nIDLE 798".toList).toOption = some [.step 0xE#4, .flap, .idle 798] ∧
    (parseTrace "IDLE 0".toList).toOption = none ∧ (parseTrace "STEP BA".toList).toOption = none := by decide
/-- 30_encoding.md R59. -/
theorem test_emission_trace : checkEmissions [0x100000000000#48, 0x20633F000000#48] = none ∧
    (checkEmissions [0x100000000000#48, 0x500000000000#48]).isSome = true ∧
    checkEmissions [0x000000000000#48] = some .noneEmitted := by decide

/-! ### Witnesses: for each statement with hypotheses, a concrete state and operands that meet them, one for each clause -/

/-- A word presented to the default machine. -/
def presented (r : RawWord) : State := { mk 0 0 0 false 0 with port := [r] }

/-- A running loop with a watchdog timeout. -/
def loop (timeout : Nat) (gate : Bool) (s : State) : Loop :=
  { block := { s with params := { cfg with wdtTimeoutMs := some timeout } }, gate := gate, run := .running, calls := [] }

theorem witness_EncodeDecodeRoundTrip : (decode (.cmd 0x2063BF000000#48)).toOption =
    some (.cmdBusDuty 0x63#8 0xBF000000#32) := by decide

theorem witness_ReservedUopWordsAreRefused_opid : let s := presented (.uop 0x0030#16)
    s.params.legal = true ∧ 0x0C ≤ (uopOpid 0x0030#16).toNat := by decide
theorem witness_ReservedUopWordsAreRefused_inst : let s := presented (.uop 0x000B#16)
    s.params.legal = true ∧ uopInst 0x000B#16 = 0b11#2 := by decide
theorem witness_ReservedUopWordsAreRefused_outside : let s := presented (.uop 0x0005#16)
    s.params.legal = true ∧ uopInst 0x0005#16 ≠ 0b00#2 ∧ uopOpid 0x0005#16 ≠ 0x02#5 ∧ uopOpid 0x0005#16 ≠ 0x03#5 ∧
      uopOpid 0x0005#16 ≠ 0x04#5 := by decide

/-- The four kinds of ill-formed word, at the first reserved KIND; any of them in a trace, and presented. -/
theorem witness_IllFormedWordsNeverEmittedAndRefused :
    cmdKind 0x000000000000#48 = 0x0#4 ∧ 5 ≤ (cmdKind 0x500000000000#48).toNat ∧ cmdRsvd 0x210000000000#48 ≠ 0#4 ∧
    (cmdKind 0x100100000000#48 = 0x1#4 ∧ cmdTarget 0x100100000000#48 ≠ 0#8) ∧
    (presented (.cmd 0x500000000000#48)).params.legal = true := by decide

theorem witness_EmittedWordsAreAdmittedCommands : (mk 10 5 5 true 20).params.legal = true ∧
    see (exec (.step 0x0#4) (mk 10 5 5 true 20)) (fun t => (emits t.acts).length) = some 4 := by decide
theorem witness_EverySiwIsLegal : (mk 10 5 5 true 20).params.legal = true := by decide
theorem witness_StepRunsTheDecodedOperation : let s := presented (.uop 0x0F00#16)
    s.params.legal = true ∧ s.port = .uop 0x0F00#16 :: [] ∧ (decode (.uop 0x0F00#16)).toOption = some (.step 0xF#4) := by
  decide
theorem witness_StepHoldsWithNothingPresented : (mk 1 2 3 true 20).params.legal = true ∧ (mk 1 2 3 true 20).port = [] := by
  decide
/-- Both sides of the equivalence occur, at the boundary of R9(a). -/
theorem witness_ConfigurationRefusedExactlyWhenBroken :
    refusal (step { mk 0 0 0 false 0 with params := { cfg with nB := 255 } }) = some .badConfiguration ∧
    refusal (step { mk 0 0 0 false 0 with params := { cfg with nB := 254 } }) = none := by decide
theorem witness_StepNeverFaultsAndAlwaysCompletes : (mk 10 5 5 true 20).params.legal = true := by decide
theorem witness_ResetWritesEveryRegister : (ran (exec .reset (mk 1 2 3 true 20))).isSome = true := by decide
theorem witness_NoOperationChangesParameters : (ran (exec .seqTick (mk 1 2 3 true 20))).isSome = true ∧
    (ran (step (presented (.uop 0x0F00#16)))).isSome = true := by decide

/-- The highest count in range, under the tightest configuration of R9(a). -/
theorem witness_UpdateDrivesTheUpdatedCount :
    let s := { mk 254 5 5 false 0 with params := { cfg with nP := 254 } }
    s.params.legal = true ∧ s.inRange = true := by decide
/-- A press moves the count up, a release down, and a fire clears it. -/
theorem witness_UpdateInvariant : (mk 3 0 5 false 0).params.legal = true ∧
    see (exec (.step 0x6#4) (mk 3 0 5 false 0)) (fun t => (t.wires.uP, t.wires.sP)) = some (4, true) ∧
    see (exec (.step 0x7#4) (mk 3 0 5 false 0)) (fun t => (t.wires.uP, t.wires.sP)) = some (2, false) ∧
    see (exec (.step 0x3#4) (mk 3 0 5 false 0)) (fun t => t.wires.fire .b) = some true := by decide
/-- A clear from 5 to 0. -/
theorem witness_ClearWritesTheCounter :
    see (exec (.step 0x5#4) (mk 0 5 0 false 0)) (fun t => decide (t.cntA + 1 < 5)) = some true := by decide
/-- The threshold itself, where `u_i` is one above it. -/
theorem witness_CountersEndInRange : (mk 10 5 5 false 0).cnt .a ≤ threshold (mk 10 5 5 false 0).params .a ∧
    see (exec (.step 0x5#4) (mk 10 5 5 false 0)) (·.wires.uA) = some 6 := by decide
theorem witness_SaturationIsNeverReached :
    ((mk 0 255 0 false 0).cnt .a = 2 ^ cfg.cntW - 1 ∧ sample 0x5#4 .a = true) ∧
    (cfg.legal = true ∧ (mk 10 5 5 false 8000).inRange = true) := by decide
theorem witness_HeldButtonFiresEveryThresholdPlusOne :
    let siws : List Siw := List.replicate 6 0x5#4
    cfg.legal = true ∧ (mk 0 0 0 false 0).cnt .a = 0 ∧ siws ≠ [] ∧
      (∀ siw ∈ siws, sample siw .a = true ∧ extBit siw = false) := by decide
/-- Two states that agree in one circuit only. -/
theorem witness_DebounceCircuitsDoNotInteract : (mk 4 0 0 false 0).cnt .p = (mk 4 5 2 true 70).cnt .p ∧
    sample 0x6#4 .p = sample 0x0#4 .p ∧ extBit 0x6#4 = extBit 0x0#4 := by decide

theorem witness_ToggleFlipsTheDirection :
    let a := wired { Wires.zero with ext := true }
    let b := wired { Wires.zero with hitP := true }
    let c := wired Wires.zero
    (a.wires.hitP = true ∨ a.wires.ext = true) ∧ (b.wires.hitP = true ∨ b.wires.ext = true) ∧
      ¬ (c.wires.hitP = true ∨ c.wires.ext = true) ∧
      (stepWires 0xF#4 (mk 0 0 0 true 3120)).fire .p = true ∧ (stepWires 0x6#4 (mk 9 0 0 true 3120)).fire .p = false := by
  decide
theorem witness_DriveDutyIsTheInterpolation : cfg.legal = true ∧ cfg.maxDuty = some 0x3F000000#32 ∧
    (ran (exec .seqDriveDuty (wired { Wires.zero with dir1 := true }))).isSome = true ∧
    (ran (exec .seqDriveDuty (wired { Wires.zero with dir1 := false }))).isSome = true := by decide
theorem witness_NeutralEmitsWhileRunOut : (wired Wires.zero).wires.cd2 = 0 ∧
    (wired { Wires.zero with cd2 := 1 }).wires.cd2 ≠ 0 := by decide
/-- A signed count below 0 and one above. -/
theorem witness_SaturatedCountdownFollowsSigned : cfg.legal = true ∧ (mk 0 0 0 false 0).cd = (-30 : Int).toNat ∧
    (mk 0 0 0 true 3120).cd = (3120 : Int).toNat := by decide
/-- Each row of the table, the third at its boundary `CD = PERIOD_MS`, the second just above it. -/
theorem witness_SequencerTransitions :
    let short := { mk 0 0 0 false 0 with params := { cfg with armMs := 10 } }
    ((mk 0 0 0 false 0).active = false ∧ (stepWires 0x7#4 (mk 0 0 0 false 0)).fire .p = false) ∧
    ((mk 0 0 0 false 11).active = true ∧ (stepWires 0x7#4 (mk 0 0 0 false 11)).fire .p = false ∧ cfg.periodMs < 11) ∧
    ((mk 0 0 0 false 10).active = true ∧ (stepWires 0x7#4 (mk 0 0 0 false 10)).fire .p = false ∧ 10 ≤ cfg.periodMs) ∧
    ((stepWires 0xF#4 (mk 0 0 0 false 0)).fire .p = true ∧ cfg.periodMs < cfg.armMs) ∧
    ((stepWires 0xF#4 short).fire .p = true ∧ short.params.armMs ≤ short.params.periodMs) := by decide
theorem witness_DriveLastsArmOverPeriodTicks : cfg.legal = true ∧
    (stepWires 0xF#4 (mk 0 0 0 false 0)).fire .p = true ∧
    quietRun [0x7#4, 0x6#4] (stepState 0xF#4 (mk 0 0 0 false 0)) := by
  refine ⟨by decide, by decide, ?_, ?_, trivial⟩ <;> decide

theorem witness_SourceWordsMatchTheTable : cfg = { Params.default with maxDuty := some 0x3F000000#32 } := by decide
/-- A neutral step and a silent one, where `ARM_MS > PERIOD_MS`. -/
theorem witness_CmdHoldsTheLastEmittedWord : cfg.periodMs < cfg.armMs ∧
    see (exec (.step 0x7#4) (mk 0 0 0 false 10)) (·.wires.neutral) = some true ∧
    see (exec (.step 0x7#4) (mk 0 0 0 false 11)) (fun t => emits t.acts) = some [] := by decide
theorem witness_LdrHoldsTheLastLocalDuty : (mk 0 0 0 false 0).ldr = 0x00000000#32 ∧
    (stepWires 0x7#4 (mk 0 0 0 false 0)).fire .p = false ∧ (stepWires 0x7#4 (mk 0 0 0 false 0)).neutral = true := by decide
theorem witness_ActionsOfAStepAreBounded : (mk 10 5 5 false 0).params.periodMs < (mk 10 5 5 false 0).params.armMs := by decide
theorem witness_CmdReadsNoneUntilTheFirstStep : (ran (exec .reset (mk 1 2 3 true 20))).isSome = true := by decide

theorem witness_AllThreeFireInSlotOrder : let s := mk 10 5 5 false 0
    s.params.legal = true ∧ s.params.periodMs < s.params.armMs ∧ s.cntP = s.params.nP ∧ s.cntA = s.params.nA ∧
      s.cntB = s.params.nB ∧ sample 0x0#4 .p = true ∧ sample 0x0#4 .a = true ∧ sample 0x0#4 .b = true := by decide
theorem witness_CounterAndGateRequestsMerge : sample 0x6#4 .p = sample 0xE#4 .p ∧ sample 0x6#4 .a = sample 0xE#4 .a ∧
    sample 0x6#4 .b = sample 0xE#4 .b ∧ (stepWires 0x6#4 (mk 10 0 0 false 0)).hitP = true := by decide
theorem witness_ToggleStepTicksItsArm : cfg.legal = true ∧ (stepWires 0x6#4 (mk 10 0 0 false 0)).fire .p = true ∧
    cfg.periodMs < cfg.armMs := by decide
/-- Two states that differ in wires and action list. -/
theorem witness_StepDependsOnRegistersOnly :
    let s := mk 1 2 3 true 20
    let t := { s with acts := [.wait 500], wires := { Wires.zero with hitA := true } }
    SameRegisters s t ∧ s ≠ t := by
  refine ⟨⟨?_, ?_, ?_, ?_, ?_, ?_, ?_, ?_⟩, ?_⟩ <;> decide

theorem witness_DrivenRunStaysInRange : let s := { mk 10 5 5 true 8000 with port := [.uop 0x0000#16, .uop 0x0004#16] }
    State.Driven s ∧ (ran (step s)).isSome = true := by
  refine ⟨⟨?_, ?_, ?_⟩, ?_⟩ <;> decide
theorem witness_CmdStaysWellFormed :
    let s := { presented (.cmd 0x30633F800000#48) with cmd := 0x20633F000000#48 }
    s.cmdWellFormed = true ∧ (ran (step s)).isSome = true := by decide
theorem witness_LocalDriveAgreesWithSequencer :
    let s := { mk 10 5 5 true 8000 with ldr := 0x3F000000#32, port := [.uop 0x0600#16] }
    State.Driven s ∧ s.driveAgrees = true ∧ (ran (step s)).isSome = true := by
  refine ⟨⟨?_, ?_, ?_⟩, ?_⟩ <;> decide

/-- The timeout is 1 ms longer than the longest waits. -/
theorem witness_IterationTakesTheGateAndCompletes : let l := loop 1511 true (mk 10 5 5 false 0)
    l.run = .running ∧ l.block.params.legal = true ∧ l.gate = true ∧
      watchdogMargin l.block.params 0 = true := by decide
/-- The timeout is exactly the longest waits, and all three fire. -/
theorem witness_ShortTimeoutStarvesTheWatchdog : let l := loop 1510 false (mk 10 5 5 false 0)
    l.run = .running ∧ l.block.params.legal = true ∧
      watchdogMargin l.block.params 0 = false ∧
      (∀ i, (stepWires (l.siw (fun _ => false)) l.block).fire i = true) := by
  refine ⟨by decide, by decide, by decide, fun i => ?_⟩
  cases i <;> rfl
theorem witness_StopEndsAtTheIterationBoundary : (loop 2000 true (mk 1 2 3 true 20)).run = .running ∧
    (loop 2000 true (mk 1 2 3 true 20)).block.params.legal = true := by decide
theorem witness_TraceLinesMeanTheirSteps : (true || false || false || false) = true ∧
    parseSet ['P', 'X'] = some 0xE#4 := by decide
/-- One trace for each clause; a counter one above its threshold is out of range. -/
theorem witness_TraceNeedsResetOrStartState :
    (List.all [TraceLine.flap] TraceLine.wellFormed = true ∧ [TraceLine.flap].head? ≠ some .reset) ∧
    (cfg.legal = true ∧ [TraceLine.reset, .idle 1].all TraceLine.wellFormed = true) ∧
    (mk 10 5 5 false 8000).inRange = true ∧ (mk 10 6 5 false 8000).inRange = false := by decide
theorem witness_RunShowsEveryStep : (mk 10 5 5 false 0).params.legal = true ∧ 1 < [0xF#4, 0x7#4].length := by decide

end Sys2Proof.Tests
end

section
/-! The parameter constraints of 00_scope.md R9 as propositions, and when the machine refuses a configuration. -/

namespace Sys2Proof

theorem Params.legalThresholds_iff (p : Params) : p.legalThresholds = true ↔
    p.nP + 1 ≤ 2 ^ p.cntW - 1 ∧ p.nA + 1 ≤ 2 ^ p.cntW - 1 ∧ p.nB + 1 ≤ 2 ^ p.cntW - 1 := by
  simp [Params.legalThresholds, and_assoc]

theorem Params.legalArm_iff (p : Params) : p.legalArm = true ↔ 0 < p.armMs ∧ p.armMs < 2 ^ p.cdW := by
  simp [Params.legalArm]

theorem Params.legalPeriod_iff (p : Params) :
    p.legalPeriod = true ↔ 0 < p.periodMs ∧ p.periodMs < 2 ^ p.cdW := by
  simp [Params.legalPeriod]

theorem Params.legalTarget_iff (p : Params) : p.legalTarget = true ↔ p.targetId ≤ 255 := by
  simp [Params.legalTarget]

theorem Params.legalCurrents_iff (p : Params) :
    p.legalCurrents = true ↔ p.curA.isFinite = true ∧ p.curB.isFinite = true := by
  simp [Params.legalCurrents]

/-- R9(e) may be read off `M` even when `MAX_DUTY` is open: the free value ranges over admitted words only (log 4). -/
theorem Params.legalMaxDuty_iff_maxDutyWord (p : Params) :
    p.legalMaxDuty = true ↔ p.maxDutyWord.isMaxDuty = true := by
  refine ⟨p.maxDutyWord_legal, fun h => ?_⟩
  unfold Params.legalMaxDuty
  unfold Params.maxDutyWord at h
  cases hm : p.maxDuty with
  | none => rfl
  | some m => simpa [hm] using h

/-- `Params.legal` with the constraints R9(a) to (f) written out. -/
theorem Params.legal_iff_constraints (p : Params) : p.legal = true ↔
    (p.nP + 1 ≤ 2 ^ p.cntW - 1 ∧ p.nA + 1 ≤ 2 ^ p.cntW - 1 ∧ p.nB + 1 ≤ 2 ^ p.cntW - 1) ∧
    (0 < p.armMs ∧ p.armMs < 2 ^ p.cdW) ∧
    (0 < p.periodMs ∧ p.periodMs < 2 ^ p.cdW) ∧
    p.targetId ≤ 255 ∧
    (p.maxDutyWord.isFinite = true ∧ 0 < p.maxDutyWord.scaled ∧ p.maxDutyWord.scaled ≤ 2 ^ 149) ∧
    (p.curA.isFinite = true ∧ p.curB.isFinite = true) := by
  rw [Params.legal_iff, Params.legalThresholds_iff, Params.legalArm_iff, Params.legalPeriod_iff,
    Params.legalTarget_iff, Params.legalMaxDuty_iff_maxDutyWord, F32.isMaxDuty_iff, Params.legalCurrents_iff]

namespace Machine

theorem exec_cmdNone (s : State) : exec .cmdNone s = .refused .noneEmitted := rfl

/-- `CMD.NONE` is the only operation that does not complete. -/
theorem exec_completes {i : Instr} (h : i ≠ .cmdNone) (s : State) : ∃ t, exec i s = .next t := by
  cases i with
  | cmdNone => exact absurd rfl h
  | _ => exact ⟨_, rfl⟩

theorem exec_ne_badConfiguration (i : Instr) (s : State) : exec i s ≠ .refused .badConfiguration := by
  by_cases h : i = .cmdNone
  · subst h
    simp [exec_cmdNone]
  · obtain ⟨t, ht⟩ := exec_completes h s
    simp [ht]

/-- The configuration is refused before anything is run, and for no other reason (60_exceptions.md R151(a)). -/
theorem step_badConfiguration_iff (s : State) :
    step s = .refused .badConfiguration ↔ ¬ s.params.legal = true := by
  rcases take_cases s with
    ⟨hl, ht⟩ | ⟨hl, _, ht⟩ | ⟨r, rest, why, hl, _, _, ht⟩ | ⟨r, rest, i, hl, _, _, ht⟩
  · simp [step, ht, hl]
  · simp [step, ht, hl]
  · simp [step, ht, hl]
  · simp [step, ht, hl, exec_ne_badConfiguration]

/-- Settles O10: only the check of the configuration refuses with `badConfiguration`, and it is R9(a) to (f); R9(g) and the
lower bound of R9(d) hold of every natural number. -/
theorem configurationRefusedExactlyWhenBroken : Obligations.ConfigurationRefusedExactlyWhenBroken := by
  intro s
  rw [step_badConfiguration_iff, Params.legal_iff_constraints]
  simp only [Nat.zero_le, true_and, and_true]

end Machine

end Sys2Proof
end

section
/-! What no operation writes (10_state.md R21), and the range of a counter and of its update wire (10_state.md R24). -/

namespace Sys2Proof.Machine

/-! ### The parameters -/

/-- An outcome that is known keeps the parameters of `s` when its state does. -/
theorem params_eq_of_next {s u t : State} (h : (.next u : Host.Outcome State Fault Refusal) = .next t)
    (hu : u.params = s.params) : t.params = s.params := by
  injection h with h
  rw [← h, hu]

/-- Every operation is built of the named updates of the state, and each of those keeps the parameters. -/
theorem exec_params {i : Instr} {s t : State} (h : exec i s = .next t) : t.params = s.params := by
  cases i with
  | step siw => exact params_eq_of_next h (stepState_params siw s)
  | reset => exact params_eq_of_next h s.applyReset_params
  | dbcUpdateP | dbcUpdateA | dbcUpdateB | dbcCmpP | dbcCmpA | dbcCmpB | seqDriveDuty | seqArm =>
    exact params_eq_of_next h (s.drive_params _)
  | dbcClearP | dbcClearA | dbcClearB => exact params_eq_of_next h (s.writeCnt_params _ _)
  | seqToggle => exact params_eq_of_next h (((s.writeDir _).drive_params _).trans (s.writeDir_params _))
  | seqTick => exact params_eq_of_next h (((s.writeCd _).drive_params _).trans (s.writeCd_params _))
  | seqNeutral => exact params_eq_of_next h ((neutralAction_params _ _).trans (s.drive_params _))
  | muxWait => exact params_eq_of_next h (s.wait_params _)
  | cmdNone => simp [exec_cmdNone] at h
  | muxEmit | cmdLocalDuty | cmdBusDuty | cmdBusCurrent | cmdBusCurrentBrake =>
    exact params_eq_of_next h (s.emit_params _)

theorem step_params {s t : State} (h : step s = .next t) : t.params = s.params := by
  rcases step_next_cases h with ⟨_, _, ht⟩ | ⟨r, rest, i, _, _, _, hi⟩
  · rw [ht]
  · exact (exec_params hi).trans (s.withPort_params rest)

/-- Settles O14: a machine step holds the state or runs one operation, and no operation writes a parameter. -/
theorem noOperationChangesParameters : Obligations.NoOperationChangesParameters :=
  ⟨fun _ _ _ h => exec_params h, fun _ _ h => step_params h, rfl⟩

/-! ### The counters -/

/-- A hit is a fire, whichever the circuit; only P has another cause (43_step.md R132). -/
theorem Wires.fire_of_hit {w : Wires} {i : DbcInst} (h : w.hit i = true) : w.fire i = true := by
  cases i with
  | p =>
    have hP : w.hitP = true := h
    simp [Wires.fire, hP]
  | a | b => exact h

/-- A step clears a counter whose update exceeds the threshold (40_debounce.md R72, R73). -/
theorem stepState_cnt_eq_zero {siw : Siw} {s : State} {i : DbcInst}
    (h : threshold s.params i < (stepWires siw s).u i) : (stepState siw s).cnt i = 0 := by
  have hhit : (stepWires siw s).hit i = true := by
    rw [stepWires_hit]
    exact decide_eq_true h
  rw [stepState_cnt, Wires.fire_of_hit hhit]
  rfl

/-- From a count in range the update is at most one above the threshold (10_state.md R24). -/
theorem stepWires_u_le {siw : Siw} {s : State} {i : DbcInst} (h : s.cnt i ≤ threshold s.params i) :
    (stepWires siw s).u i ≤ threshold s.params i + 1 := by
  rw [stepWires_u]
  exact (updatedCount_le_succ _ _ _).trans (Nat.succ_le_succ h)

/-- Settles O19: the update overshoots a count in range by one at most, and an update above the threshold is cleared in the
same step. -/
theorem countersEndInRange : Obligations.CountersEndInRange := by
  intro siw s i hcnt
  refine ⟨stepState siw s, rfl, stepState_cnt_le siw s i, stepWires_u_le hcnt, fun hu => ?_⟩
  have hover : threshold s.params i < (stepWires siw s).u i := hu ▸ Nat.lt_succ_self _
  exact stepState_cnt_eq_zero hover

end Sys2Proof.Machine
end

section
/-! No source of the command output multiplexer has KIND NONE (42_command_mux.md R110, R124). -/

namespace Sys2Proof.Machine

theorem sourceKind_ne_kindNone (src : Source) : sourceKind src ≠ kindNone := by
  cases src <;> decide

/-- A step's words are words of the five sources, whatever the configuration and the wires. -/
theorem cmdKind_ne_kindNone_of_mem_emits_stepActs {p : Params} {w : Wires} {x : CmdWord}
    (h : x ∈ emits (stepActs p w)) : cmdKind x ≠ kindNone := by
  obtain ⟨src, rfl⟩ := mem_emits_stepActs h
  rw [cmdKind_sourceWord]
  exact sourceKind_ne_kindNone src

/-- Settles O40: every word of a STEP comes from a source of the multiplexer, and none of those has KIND NONE. -/
theorem noneWordIsRefused : Obligations.NoneWordIsRefused :=
  ⟨fun siw s => ⟨stepState siw s, rfl, fun _ hw => cmdKind_ne_kindNone_of_mem_emits_stepActs hw⟩,
    exec_cmdNone⟩

end Sys2Proof.Machine
end

section
/-! The debounce bank (40_debounce.md): what its three operations write, how far one update moves a count, and a button held
over a run of steps. -/

namespace Sys2Proof.Machine

/-! ### One update of a count (40_debounce.md R70, R71) -/

theorem updatedCount_pressed (p : Params) (c : Nat) : updatedCount p c true = satInc p.cntW c := rfl

theorem updatedCount_released (p : Params) (c : Nat) : updatedCount p c false = c - 1 := satDec_eq_pred c

theorem le_updatedCount_succ (p : Params) (c : Nat) (b : Bool) : c ≤ updatedCount p c b + 1 := by
  cases b with
  | false =>
    rw [updatedCount_released]
    omega
  | true => exact (le_satInc p.cntW c).trans (Nat.le_succ _)

theorem eq_true_of_lt_updatedCount {p : Params} {c : Nat} {b : Bool} (h : c < updatedCount p c b) : b = true := by
  cases b with
  | false =>
    rw [updatedCount_released] at h
    omega
  | true => rfl

theorem eq_false_of_updatedCount_lt {p : Params} {c : Nat} {b : Bool} (h : updatedCount p c b < c) : b = false := by
  cases b with
  | false => rfl
  | true => exact absurd h (le_satInc p.cntW c).not_gt

/-- An admitted configuration has room for one count above each threshold (00_scope.md R9(a)). -/
theorem threshold_succ_le_top {p : Params} (h : p.legal = true) (i : DbcInst) :
    threshold p i + 1 ≤ 2 ^ p.cntW - 1 := by
  obtain ⟨⟨hP, hA, hB⟩, -⟩ := (Params.legal_iff_constraints p).mp h
  cases i with
  | p => exact hP
  | a => exact hA
  | b => exact hB

theorem top_pos {p : Params} (h : p.legal = true) : 0 < 2 ^ p.cntW - 1 :=
  (Nat.succ_pos _).trans_le (threshold_succ_le_top h .p)

theorem updatedCount_pressed_pos {p : Params} (h : p.legal = true) (c : Nat) : 0 < updatedCount p c true := by
  have htop := top_pos h
  rw [updatedCount_pressed, satInc]
  split <;> omega

/-- The saturation at the top does not spoil the order: the release moves down from there (40_debounce.md R71). -/
theorem updatedCount_released_lt_pressed {p : Params} (h : p.legal = true) (c : Nat) :
    updatedCount p c false < updatedCount p c true := by
  have hpos := updatedCount_pressed_pos h c
  have hle : c ≤ updatedCount p c true := le_satInc p.cntW c
  rw [updatedCount_released]
  omega

/-- A count in range is below the top, so the update of a press is the unbounded one (40_debounce.md R76). -/
theorem updatedCount_pressed_of_le_threshold {p : Params} (h : p.legal = true) {i : DbcInst} {c : Nat}
    (hc : c ≤ threshold p i) : updatedCount p c true = c + 1 :=
  satInc_of_lt ((Nat.lt_succ_of_le hc).trans_le (threshold_succ_le_top h i))

/-! ### The counters of a step -/

theorem exec_step (siw : Siw) (s : State) : exec (.step siw) s = .next (stepState siw s) := rfl

theorem stepWires_s (siw : Siw) (s : State) (i : DbcInst) : (stepWires siw s).s i = sample siw i := by
  cases i <;> rfl

theorem stepState_cnt_of_fire {siw : Siw} {s : State} {i : DbcInst} (h : (stepWires siw s).fire i = true) :
    (stepState siw s).cnt i = 0 := by
  rw [stepState_cnt, h]
  rfl

theorem stepState_cnt_of_not_fire {siw : Siw} {s : State} {i : DbcInst} (h : (stepWires siw s).fire i = false) :
    (stepState siw s).cnt i = (stepWires siw s).u i := by
  rw [stepState_cnt, h]
  rfl

/-- Only the clear moves a counter by more than one (40_debounce.md R73). -/
theorem fire_of_cnt_moved {siw : Siw} {s : State} {i : DbcInst}
    (h : s.cnt i + 1 < (stepState siw s).cnt i ∨ (stepState siw s).cnt i + 1 < s.cnt i) :
    (stepWires siw s).fire i = true := by
  cases hf : (stepWires siw s).fire i with
  | true => rfl
  | false =>
    rw [stepState_cnt_of_not_fire hf, stepWires_u] at h
    have hup := updatedCount_le_succ s.params (s.cnt i) (sample siw i)
    have hdown := le_updatedCount_succ s.params (s.cnt i) (sample siw i)
    omega

/-- In range the update is the source's unbounded one (40_debounce.md R76). -/
theorem stepWires_u_of_le_threshold {siw : Siw} {s : State} {i : DbcInst} (hl : s.params.legal = true)
    (hc : s.cnt i ≤ threshold s.params i) :
    (stepWires siw s).u i = if sample siw i then s.cnt i + 1 else s.cnt i - 1 := by
  rw [stepWires_u]
  cases sample siw i with
  | false => exact updatedCount_released s.params (s.cnt i)
  | true => exact updatedCount_pressed_of_le_threshold hl hc

/-! ### The three operations -/

/-- Settles O15: each update is the saturating count of R70 by definition; a count in range is at most its threshold, which
is below the top. -/
theorem updateDrivesTheUpdatedCount : Obligations.UpdateDrivesTheUpdatedCount :=
  ⟨fun _ => rfl, fun _ => rfl, fun _ => rfl,
    fun _ i hl hr => (Nat.lt_succ_of_le (inRange_cnt hr i)).trans_le (threshold_succ_le_top hl i)⟩

/-- Settles O17: the comparator is by definition the strict compare of the wire `u_i` with the threshold. -/
theorem compareDrivesTheHit : Obligations.CompareDrivesTheHit :=
  ⟨fun _ => rfl, fun _ => rfl, fun _ => rfl⟩

/-- `fire_P` has the two causes of 43_step.md R132. -/
theorem clearedCount_fire_p (w : Wires) :
    clearedCount (w.fire .p) w.uP = if w.hitP = true ∨ w.ext = true then 0 else w.uP := by
  simp only [clearedCount, Wires.fire, Bool.or_eq_true]

theorem exec_dbcClearP (s : State) :
    exec .dbcClearP s = .next { s with cntP := clearedCount (s.wires.fire .p) s.wires.uP } := rfl

/-- Settles O18: the clear writes its own counter, and a step stores an update, which moves by one at most, unless the circuit
fires. -/
theorem clearWritesTheCounter : Obligations.ClearWritesTheCounter := by
  refine ⟨fun s => ?_, fun _ => rfl, fun _ => rfl, fun siw s i => ⟨_, exec_step siw s, fun hmoved => ?_⟩⟩
  · rw [exec_dbcClearP, clearedCount_fire_p]
  · have hfire := fire_of_cnt_moved hmoved
    exact ⟨hfire, stepState_cnt_of_fire hfire⟩

/-! ### Every step -/

/-- Settles O16: the wires and the counter of a step are read off `updatedCount` and `clearedCount`. -/
theorem updateInvariant : Obligations.UpdateInvariant := by
  intro siw siw' s i hl
  refine ⟨_, _, exec_step siw s, exec_step siw' s, ?_⟩
  simp only [stepState_wires, stepWires_u, stepWires_s]
  refine ⟨updatedCount_le_succ _ _ _, le_updatedCount_succ _ _ _, eq_true_of_lt_updatedCount,
    eq_false_of_updatedCount_lt, fun hs hs' => ?_, stepState_cnt_of_fire⟩
  rw [hs, hs']
  exact updatedCount_released_lt_pressed hl _

/-- Settles O20: at the top a press holds the count; a count in range is below it. -/
theorem saturationIsNeverReached : Obligations.SaturationIsNeverReached := by
  constructor
  · intro siw s i htop hs
    refine ⟨_, exec_step siw s, ?_⟩
    rw [stepState_wires, stepWires_u, hs, updatedCount_pressed, htop, satInc_top]
  · intro siw s i hl hr
    have hc := inRange_cnt hr i
    exact ⟨_, exec_step siw s, stepWires_u_of_le_threshold hl hc, stepWires_u_le hc, threshold_succ_le_top hl i,
      stepState_cnt_le siw s i⟩

/-- Settles O23: a step drives its samples from the SIW alone. -/
theorem samplesAreInvertedPins : Obligations.SamplesAreInvertedPins :=
  ⟨fun siw s => ⟨_, exec_step siw s, rfl, rfl, rfl⟩, fun s => ⟨_, exec_step 0x6#4 s, rfl, rfl, rfl⟩⟩

/-! ### A held button (40_debounce.md R77) -/

/-- Without EXT a fire is a hit, whichever the circuit (43_step.md R132). -/
theorem stepWires_fire_of_not_ext {siw : Siw} (s : State) (i : DbcInst) (h : extBit siw = false) :
    (stepWires siw s).fire i = decide (threshold s.params i < (stepWires siw s).u i) := by
  have hfire : (stepWires siw s).fire i = (stepWires siw s).hit i := by
    cases i with
    | p => simp only [Wires.fire, Wires.hit, stepWires_ext, h, Bool.or_false]
    | a | b => rfl
  rw [hfire, stepWires_hit, comparator]

/-- A step with the button held counts modulo `N_i + 1`. -/
theorem stepState_cnt_held {siw : Siw} {s : State} {i : DbcInst} (hl : s.params.legal = true)
    (hc : s.cnt i ≤ threshold s.params i) (hs : sample siw i = true) (hx : extBit siw = false) :
    (stepState siw s).cnt i = (s.cnt i + 1) % (threshold s.params i + 1) := by
  have hu : (stepWires siw s).u i = s.cnt i + 1 := by
    rw [stepWires_u, hs, updatedCount_pressed_of_le_threshold hl hc]
  rcases Nat.lt_or_eq_of_le hc with hlt | heq
  · have hf : (stepWires siw s).fire i = false := by
      rw [stepWires_fire_of_not_ext s i hx, hu]
      exact decide_eq_false (by omega)
    rw [stepState_cnt_of_not_fire hf, hu, Nat.mod_eq_of_lt (by omega)]
  · have hover : threshold s.params i < (stepWires siw s).u i := by omega
    rw [stepState_cnt_eq_zero hover, heq, Nat.mod_self]

/-- A press never updates to 0, so a counter is 0 after it exactly by a clear. -/
theorem fire_iff_cnt_eq_zero_of_pressed {siw : Siw} {s : State} {i : DbcInst} (hl : s.params.legal = true)
    (hs : sample siw i = true) : (stepWires siw s).fire i = true ↔ (stepState siw s).cnt i = 0 := by
  refine ⟨stepState_cnt_of_fire, fun hz => ?_⟩
  cases hf : (stepWires siw s).fire i with
  | true => rfl
  | false =>
    rw [stepState_cnt_of_not_fire hf, stepWires_u, hs] at hz
    exact absurd hz (updatedCount_pressed_pos hl _).ne'

theorem settleMs_mem_waits_of_fire {p : Params} {w : Wires} {i : DbcInst} (h : w.fire i = true) :
    p.settleMs ∈ waits (stepActs p w) := by
  rw [waits_stepActs]
  cases i <;> simp [h]

/-- The state after STEPs with the SIWs of a list, in order. -/
def stepStates (siws : List Siw) (s : State) : State := siws.foldl (fun t siw => stepState siw t) s

@[simp] theorem stepStates_nil (s : State) : stepStates [] s = s := rfl

@[simp] theorem stepStates_cons (siw : Siw) (siws : List Siw) (s : State) :
    stepStates (siw :: siws) s = stepStates siws (stepState siw s) := rfl

theorem stepStates_concat (siws : List Siw) (siw : Siw) (s : State) :
    stepStates (siws ++ [siw]) s = stepState siw (stepStates siws s) := by
  simp [stepStates]

@[simp] theorem stepStates_params (siws : List Siw) (s : State) : (stepStates siws s).params = s.params := by
  induction siws generalizing s with
  | nil => rfl
  | cons siw siws ih => rw [stepStates_cons, ih, stepState_params]

theorem execAll_steps (siws : List Siw) (s : State) :
    execAll (siws.map .step) s = .next (stepStates siws s) := by
  induction siws generalizing s with
  | nil => rfl
  | cons siw siws ih => rw [List.map_cons, execAll_cons _ (exec_step siw s), ih, stepStates_cons]

theorem stepStates_cnt_held {siws : List Siw} {s : State} {i : DbcInst} (hl : s.params.legal = true)
    (hc : s.cnt i ≤ threshold s.params i) (hheld : ∀ siw ∈ siws, sample siw i = true ∧ extBit siw = false) :
    (stepStates siws s).cnt i = (s.cnt i + siws.length) % (threshold s.params i + 1) := by
  induction siws generalizing s with
  | nil => exact (Nat.mod_eq_of_lt (Nat.lt_succ_of_le hc)).symm
  | cons siw siws ih =>
    obtain ⟨⟨hs, hx⟩, hrest⟩ := List.forall_mem_cons.mp hheld
    have hfirst := stepState_cnt_held hl hc hs hx
    have hothers := ih (s := stepState siw s) hl (stepState_cnt_le siw s i) hrest
    rw [stepStates_cons, hothers, stepState_params, hfirst, Nat.mod_add_mod, List.length_cons, Nat.add_right_comm,
      Nat.add_assoc]

/-- Settles O21: the count of a held button goes up modulo `N_i + 1`, and the last step of the run fired exactly when it left
the counter at 0. -/
theorem heldButtonFiresEveryThresholdPlusOne : Obligations.HeldButtonFiresEveryThresholdPlusOne := by
  intro s i siws hl h0 hne hheld
  have hcnt : (stepStates siws s).cnt i = siws.length % (threshold s.params i + 1) := by
    rw [stepStates_cnt_held hl (h0 ▸ Nat.zero_le _) hheld, h0, Nat.zero_add]
  refine ⟨_, execAll_steps siws s, hcnt, ?_⟩
  rw [← hcnt]
  obtain ⟨init, last, rfl⟩ := (List.eq_nil_or_concat' siws).resolve_left hne
  obtain ⟨hpressed, -⟩ := hheld last (by simp)
  have hlast : (stepStates init s).params = s.params := stepStates_params init s
  rw [stepStates_concat, stepState_wires, stepState_acts, ← hlast]
  exact ⟨fire_iff_cnt_eq_zero_of_pressed (hlast ▸ hl) hpressed, settleMs_mem_waits_of_fire⟩

end Sys2Proof.Machine
end

section
/-! The actuator sequencer (41_sequencer.md): its three operations, what a step does to DIR, CD and the emissions, and the
countdown over a run of steps. -/

namespace Sys2Proof

/-! ### The drive duty (41_sequencer.md R92) -/

theorem Params.duty_false (p : Params) : p.duty false = p.maxDutyWord.neg := rfl

theorem Params.duty_true (p : Params) : p.duty true = p.maxDutyWord := rfl

theorem Params.isFinite_duty (p : Params) (d : Bool) : (p.duty d).isFinite = p.maxDutyWord.isFinite := by
  cases d with
  | false => rw [Params.duty_false, F32.isFinite_neg]
  | true => rw [Params.duty_true]

/-- The duty interpolates linearly from `-MAX_DUTY` at 0 to `+MAX_DUTY` at 1. -/
theorem Params.scaled_duty (p : Params) (d : Bool) :
    (p.duty d).scaled = -p.maxDutyWord.scaled +
      (Machine.bit d : Int) * (p.maxDutyWord.scaled - -p.maxDutyWord.scaled) := by
  cases d with
  | false => simp [Machine.bit, Params.duty_false, F32.scaled_neg]
  | true => simp [Machine.bit, Params.duty_true]

theorem Params.maxDutyWord_finite_pos {p : Params} (h : p.legal = true) :
    p.maxDutyWord.isFinite = true ∧ 0 < p.maxDutyWord.scaled := by
  obtain ⟨-, -, -, -, ⟨hfin, hpos, -⟩, -⟩ := p.legal_iff_constraints.mp h
  exact ⟨hfin, hpos⟩

theorem Params.scaled_duty_true_pos {p : Params} (h : p.legal = true) : 0 < (p.duty true).scaled :=
  (Params.maxDutyWord_finite_pos h).2

theorem Params.scaled_duty_false_neg {p : Params} (h : p.legal = true) : (p.duty false).scaled < 0 := by
  rw [Params.duty_false, F32.scaled_neg]
  exact neg_neg_of_pos (Params.maxDutyWord_finite_pos h).2

/-- `MAX_DUTY` is not 0, so no drive duty is the neutral word's +0.0 (00_scope.md R9(e)). -/
theorem Params.duty_ne_neutral {p : Params} (h : p.legal = true) (d : Bool) : p.duty d ≠ F32.neutral := by
  intro heq
  have hzero : (p.duty d).scaled = 0 := by rw [heq]; rfl
  cases d with
  | false => exact (Params.scaled_duty_false_neg h).ne hzero
  | true => exact (Params.scaled_duty_true_pos h).ne' hzero

end Sys2Proof

namespace Sys2Proof.Machine

/-! ### The three operations -/

/-- `fire_P` has the two causes of 43_step.md R132. -/
theorem Wires.fire_p_iff (w : Wires) : w.fire .p = true ↔ w.hitP = true ∨ w.ext = true := by
  simp only [Wires.fire, Bool.or_eq_true]

theorem exec_seqToggle (s : State) :
    exec .seqToggle s = .next ((s.writeDir (toggledDir (s.wires.fire .p) s.dir)).drive
      { s.wires with dir1 := toggledDir (s.wires.fire .p) s.dir }) := rfl

theorem exec_seqToggle_of_fire {s : State} (h : s.wires.fire .p = true) :
    exec .seqToggle s = .next { s with dir := !s.dir, wires := { s.wires with dir1 := !s.dir } } := by
  rw [exec_seqToggle, h]
  rfl

/-- Without a fire the write of DIR stores what DIR held. -/
theorem exec_seqToggle_of_not_fire {s : State} (h : s.wires.fire .p = false) :
    exec .seqToggle s = .next { s with wires := { s.wires with dir1 := s.dir } } := by
  rw [exec_seqToggle, h]
  rfl

theorem exec_seqDriveDuty (s : State) :
    exec .seqDriveDuty s = .next (s.drive { s.wires with duty := s.params.duty s.wires.dir1 }) := rfl

theorem exec_seqArm (s : State) :
    exec .seqArm s = .next { s with wires :=
      { s.wires with cd1 := armedCount s.params (s.wires.fire .p) s.cd } } := rfl

/-- Settles O26: the arm's count is a selection by `fire_P` alone. -/
theorem armLoadsTheCountdown : Obligations.ArmLoadsTheCountdown := by
  intro s
  rw [exec_seqArm]
  simp only [armedCount, Wires.fire_p_iff]

/-- Settles O25: the duty is `M` or `M` with bit 31 flipped, and the flip negates the exact value. -/
theorem driveDutyIsTheInterpolation : Obligations.DriveDutyIsTheInterpolation := by
  refine ⟨fun _ => rfl, fun s t hl ht => ?_, fun p hp => ?_⟩
  · rw [exec_seqDriveDuty] at ht
    injection ht with ht
    have hduty : t.wires.duty = s.params.duty s.wires.dir1 := by rw [← ht]; rfl
    rw [hduty]
    refine ⟨(s.params.isFinite_duty _).trans (Params.maxDutyWord_finite_pos hl).1, s.params.scaled_duty _,
      fun hd => ?_, fun hd => ?_⟩
    · rw [hd]
      exact Params.scaled_duty_true_pos hl
    · rw [hd]
      exact Params.scaled_duty_false_neg hl
  · have hM : p.maxDutyWord = 0x3F000000#32 := by rw [Params.maxDutyWord, hp]
    rw [Params.duty_true, Params.duty_false, hM]
    decide

/-! ### DIR and CD of a step (41_sequencer.md R90, R93, R94) -/

section
variable {siw : Siw} {s : State}

theorem stepState_dir_of_fire (h : (stepWires siw s).fire .p = true) : (stepState siw s).dir = !s.dir := by
  rw [stepState_dir, stepWires_dir1, h]
  rfl

theorem stepState_dir_of_not_fire (h : (stepWires siw s).fire .p = false) : (stepState siw s).dir = s.dir := by
  rw [stepState_dir, stepWires_dir1, h]
  rfl

theorem stepWires_cd1 : (stepWires siw s).cd1 = armedCount s.params ((stepWires siw s).fire .p) s.cd := rfl

theorem stepWires_cd1_of_fire (h : (stepWires siw s).fire .p = true) : (stepWires siw s).cd1 = s.params.armMs := by
  rw [stepWires_cd1, h]
  rfl

theorem stepState_cd_of_fire (h : (stepWires siw s).fire .p = true) :
    (stepState siw s).cd = s.params.armMs - s.params.periodMs := by
  rw [stepState_cd, stepWires_cd2, h]
  exact satSub_eq_sub _ _

theorem stepState_cd_of_not_fire (h : (stepWires siw s).fire .p = false) :
    (stepState siw s).cd = s.cd - s.params.periodMs := by
  rw [stepState_cd, stepWires_cd2, h]
  exact satSub_eq_sub _ _

theorem stepWires_neutral_iff : (stepWires siw s).neutral = true ↔ (stepState siw s).cd = 0 := by
  rw [stepWires_neutral, stepState_cd, isNeutral, beq_iff_eq]

end

/-- Settles O24: the toggle, alone or in a step, is selected by `fire_P`, and so is the arm. -/
theorem toggleFlipsTheDirection : Obligations.ToggleFlipsTheDirection := by
  refine ⟨fun s => ?_, fun siw s => ⟨_, exec_step siw s, fun hf => ?_, stepState_dir_of_not_fire⟩⟩
  · rw [← Wires.fire_p_iff, Bool.not_eq_true]
    exact ⟨exec_seqToggle_of_fire, exec_seqToggle_of_not_fire⟩
  · exact ⟨stepState_dir_of_fire hf, stepWires_cd1_of_fire hf⟩

/-! ### The emissions of a step -/

/-- In an admitted configuration no other source has the neutral's word: only `SRC_TDL` is a LOCAL_DUTY word too, and its
duty is not 0. -/
theorem sourceWord_eq_neutral_iff {p : Params} (h : p.legal = true) (d : Bool) (src : Source) :
    sourceWord p d src = 0x100000000000#48 ↔ src = .ntl := by
  refine ⟨fun heq => ?_, fun hsrc => hsrc ▸ sourceWord_ntl p d⟩
  rw [← sourceWord_ntl p d] at heq
  have hkind : sourceKind src = sourceKind .ntl := by simpa using congrArg cmdKind heq
  have hvalue : sourceValue p d src = sourceValue p d .ntl := by simpa using congrArg cmdValue heq
  cases src with
  | tdl => exact absurd hvalue (Params.duty_ne_neutral h d)
  | tdb | cur | brk => exact absurd hkind (by decide)
  | ntl => rfl

theorem neutral_mem_emits_stepActs_iff {p : Params} (h : p.legal = true) (w : Wires) :
    0x100000000000#48 ∈ emits (stepActs p w) ↔ w.neutral = true := by
  simp [emits_stepActs, List.mem_ite_nil_right, eq_comm (a := 0x100000000000#48), sourceWord_eq_neutral_iff h]

/-- The words that `sequencerEmits` keeps are the toggle's two and the neutral (41_sequencer.md R97). -/
theorem isSequencerKind_sourceWord (p : Params) (d : Bool) (src : Source) :
    (cmdKind (sourceWord p d src) == 0x1#4 || cmdKind (sourceWord p d src) == 0x2#4) =
      (decide (src = .tdl) || decide (src = .tdb) || decide (src = .ntl)) := by
  rw [cmdKind_sourceWord]
  cases src <;> decide

theorem sequencerEmits_stepActs (p : Params) (w : Wires) :
    sequencerEmits (stepActs p w) =
      (if w.fire .p then [sourceWord p w.dir1 .tdl, sourceWord p w.dir1 .tdb] else []) ++
      (if w.neutral then [sourceWord p w.dir1 .ntl] else []) := by
  simp only [sequencerEmits, emits_stepActs, List.filter_append, apply_ite (List.filter _), List.filter_cons,
    List.filter_nil, isSequencerKind_sourceWord]
  simp

theorem filter_isBusKind_emits_stepActs (p : Params) (w : Wires) :
    (emits (stepActs p w)).filter isBusKind =
      (if w.fire .p then [sourceWord p w.dir1 .tdb] else []) ++
      (if w.fire .a then [sourceWord p w.dir1 .cur] else []) ++
      (if w.fire .b then [sourceWord p w.dir1 .brk] else []) := by
  simp only [emits_stepActs, List.filter_append, apply_ite (List.filter _), List.filter_cons, List.filter_nil,
    isBusKind_sourceWord]
  simp

/-- Settles O32: of a step's sources the neutral alone follows the countdown, and its word is not a bus word. -/
theorem countdownExpirySendsNoBusCommand : Obligations.CountdownExpirySendsNoBusCommand :=
  fun siw s => ⟨_, exec_step siw s, filter_isBusKind_emits_stepActs s.params (stepWires siw s)⟩

/-! ### The transition table (41_sequencer.md R97) -/

theorem State.active_iff (s : State) : s.active = true ↔ s.cd ≠ 0 := bne_iff_ne

theorem State.active_eq_false_iff (s : State) : s.active = false ↔ s.cd = 0 := bne_eq_false_iff_eq

section
variable {siw : Siw} {s : State}

theorem stepWires_neutral_eq_not_active : (stepWires siw s).neutral = !(stepState siw s).active := by
  rw [Bool.eq_iff_iff, stepWires_neutral_iff, Bool.not_eq_true', State.active_eq_false_iff]

/-- The sequencer's emissions by the state a step ends in: the toggle's two words on a fire, the neutral unless driving. -/
theorem sequencerEmits_stepState :
    sequencerEmits (stepState siw s).acts =
      (if (stepWires siw s).fire .p then
        [cmdAssemble 0x1#4 0#8 (s.params.duty (stepState siw s).dir),
          cmdAssemble 0x2#4 s.params.targetField (s.params.duty (stepState siw s).dir)]
      else []) ++ (if (stepState siw s).active then [] else [0x100000000000#48]) := by
  rw [stepState_acts, sequencerEmits_stepActs, stepWires_neutral_eq_not_active, sourceWord_ntl]
  cases (stepState siw s).active <;> rfl

theorem stepState_active_iff_of_fire (h : (stepWires siw s).fire .p = true) :
    (stepState siw s).active = true ↔ s.params.periodMs < s.params.armMs := by
  rw [State.active_iff, stepState_cd_of_fire h]
  omega

theorem stepState_active_iff_of_not_fire (h : (stepWires siw s).fire .p = false) :
    (stepState siw s).active = true ↔ s.params.periodMs < s.cd := by
  rw [State.active_iff, stepState_cd_of_not_fire h]
  omega

/-- DRIVE stays DRIVE while more than one period is left. -/
theorem stepState_drives (hf : (stepWires siw s).fire .p = false) (h : s.params.periodMs < s.cd) :
    (stepState siw s).dir = s.dir ∧ (stepState siw s).active = true ∧
      sequencerEmits (stepState siw s).acts = [] := by
  have hact := (stepState_active_iff_of_not_fire hf).mpr h
  refine ⟨stepState_dir_of_not_fire hf, hact, ?_⟩
  rw [sequencerEmits_stepState, hf, hact]
  rfl

/-- NEUTRAL stays NEUTRAL, and DRIVE runs out, when no more than one period is left. -/
theorem stepState_runs_out (hf : (stepWires siw s).fire .p = false) (h : s.cd ≤ s.params.periodMs) :
    (stepState siw s).dir = s.dir ∧ (stepState siw s).active = false ∧
      sequencerEmits (stepState siw s).acts = [0x100000000000#48] := by
  have hact : (stepState siw s).active = false :=
    Bool.eq_false_iff.mpr fun ha => h.not_gt ((stepState_active_iff_of_not_fire hf).mp ha)
  refine ⟨stepState_dir_of_not_fire hf, hact, ?_⟩
  rw [sequencerEmits_stepState, hf, hact]
  rfl

theorem stepState_toggles (hf : (stepWires siw s).fire .p = true) (h : s.params.periodMs < s.params.armMs) :
    (stepState siw s).dir = (!s.dir) ∧ (stepState siw s).active = true ∧
      sequencerEmits (stepState siw s).acts = [cmdAssemble 0x1#4 0#8 (s.params.duty (!s.dir)),
        cmdAssemble 0x2#4 s.params.targetField (s.params.duty (!s.dir))] := by
  have hdir := stepState_dir_of_fire hf
  have hact := (stepState_active_iff_of_fire hf).mpr h
  refine ⟨hdir, hact, ?_⟩
  rw [sequencerEmits_stepState, hf, hact, hdir]
  rfl

/-- With an arm of one period or less the toggle's own tick already runs it out. -/
theorem stepState_toggles_and_runs_out (hf : (stepWires siw s).fire .p = true)
    (h : s.params.armMs ≤ s.params.periodMs) :
    (stepState siw s).dir = (!s.dir) ∧ (stepState siw s).active = false ∧
      sequencerEmits (stepState siw s).acts = [cmdAssemble 0x1#4 0#8 (s.params.duty (!s.dir)),
        cmdAssemble 0x2#4 s.params.targetField (s.params.duty (!s.dir)), 0x100000000000#48] := by
  have hdir := stepState_dir_of_fire hf
  have hact : (stepState siw s).active = false :=
    Bool.eq_false_iff.mpr fun ha => h.not_gt ((stepState_active_iff_of_fire hf).mp ha)
  refine ⟨hdir, hact, ?_⟩
  rw [sequencerEmits_stepState, hf, hact, hdir]
  rfl

end

/-- Settles O30: the new DIR follows `fire_P`, the new ACTIVE the countdown, and the emissions both. In NEUTRAL the countdown
is 0, which no tick lowers. -/
theorem sequencerTransitions : Obligations.SequencerTransitions := by
  intro siw s
  refine ⟨_, exec_step siw s, fun hidle hf => ?_, fun _ hf => stepState_drives hf,
    fun _ hf => stepState_runs_out hf, stepState_toggles, stepState_toggles_and_runs_out⟩
  rw [State.active_eq_false_iff] at hidle
  exact stepState_runs_out hf (hidle ▸ Nat.zero_le _)

/-! ### The signed countdown (41_sequencer.md R96) -/

/-- One step of the saturated countdown is the source's signed step cut off at 0. -/
theorem stepState_cd_eq_toNat_signedTick {siw : Siw} {s : State} {c : Int} (h : s.cd = c.toNat) :
    (stepState siw s).cd = (signedTick s.params ((stepWires siw s).fire .p) c).toNat := by
  cases hf : (stepWires siw s).fire .p with
  | true =>
    rw [stepState_cd_of_fire hf]
    simp [signedTick]
  | false =>
    rw [stepState_cd_of_not_fire hf, h]
    simp [signedTick]

/-- Settles O29: the cut-off count is 0 exactly when the signed count is not above 0, and `neutral` reads the cut-off count. -/
theorem saturatedCountdownFollowsSigned : Obligations.SaturatedCountdownFollowsSigned := by
  intro siw s c hl hc
  have hcd := stepState_cd_eq_toNat_signedTick (siw := siw) hc
  have hneutral : (stepWires siw s).neutral = true ↔ signedTick s.params ((stepWires siw s).fire .p) c ≤ 0 := by
    rw [stepWires_neutral_iff, hcd, Int.toNat_eq_zero]
  exact ⟨_, exec_step siw s, hcd, hneutral, (neutral_mem_emits_stepActs_iff hl _).trans hneutral⟩

/-! ### How long a drive lasts (41_sequencer.md R98) -/

theorem quietRun_cons {siw : Siw} {siws : List Siw} {s : State} :
    quietRun (siw :: siws) s ↔ (stepWires siw s).fire .p = false ∧ quietRun siws (stepState siw s) := Iff.rfl

theorem stepStates_cd_of_quietRun {siws : List Siw} {s : State} (h : quietRun siws s) :
    (stepStates siws s).cd = s.cd - s.params.periodMs * siws.length := by
  induction siws generalizing s with
  | nil => simp
  | cons siw siws ih =>
    obtain ⟨hf, hrest⟩ := quietRun_cons.mp h
    rw [stepStates_cons, ih hrest, stepState_cd_of_not_fire hf, stepState_params, List.length_cons, Nat.sub_sub,
      Nat.mul_succ, Nat.add_comm]

/-- After any run of one step or more, `neutral` and the emission are those of its last step. -/
theorem stepStates_neutral_iff {siws : List Siw} {s : State} (hne : siws ≠ []) (hl : s.params.legal = true) :
    ((stepStates siws s).wires.neutral = true ↔ (stepStates siws s).cd = 0) ∧
      (0x100000000000#48 ∈ emits (stepStates siws s).acts ↔ (stepStates siws s).wires.neutral = true) := by
  obtain ⟨init, last, rfl⟩ := (List.eq_nil_or_concat' siws).resolve_left hne
  have hl' : (stepStates init s).params.legal = true := by rw [stepStates_params, hl]
  rw [stepStates_concat, stepState_wires, stepState_acts]
  exact ⟨stepWires_neutral_iff, neutral_mem_emits_stepActs_iff hl' _⟩

/-- A countdown of `a` in ticks of `b` has run out after `k + 1` ticks exactly when `k` is at least `ceil(a / b) - 1`. -/
theorem sub_mul_succ_eq_zero_iff_ceil_le {a b k : Nat} (hb : 0 < b) :
    a - b * (k + 1) = 0 ↔ (a + b - 1) / b - 1 ≤ k := by
  rw [Nat.sub_eq_zero_iff_le, ← ceilDiv_le_iff_le_mul hb, Nat.ceilDiv_eq_add_pred_div, Nat.sub_le_iff_le_add]

/-- Settles O31: the toggle's own step is the first tick of the arm, and each quiet step is one more. -/
theorem driveLastsArmOverPeriodTicks : Obligations.DriveLastsArmOverPeriodTicks := by
  refine ⟨fun s first siws hl hf hquiet => ?_, by decide⟩
  have hperiod : 0 < s.params.periodMs := by
    obtain ⟨-, -, ⟨hpos, -⟩, -⟩ := s.params.legal_iff_constraints.mp hl
    exact hpos
  have hcd : (stepStates (first :: siws) s).cd = s.params.armMs - s.params.periodMs * (siws.length + 1) := by
    rw [stepStates_cons, stepStates_cd_of_quietRun hquiet, stepState_cd_of_fire hf, stepState_params, Nat.sub_sub,
      Nat.mul_succ, Nat.add_comm]
  obtain ⟨hneutral, hemit⟩ := stepStates_neutral_iff (List.cons_ne_nil first siws) hl
  refine ⟨_, execAll_steps (first :: siws) s, hcd, ?_, hemit⟩
  rw [hneutral, hcd, sub_mul_succ_eq_zero_iff_ceil_le hperiod]

end Sys2Proof.Machine
end

section
/-! The command output multiplexer (42_command_mux.md): the words of its sources, and the words, the waits, CMD and LDR of a
step. -/

namespace Sys2Proof.Machine

/-! ### Word assembly (42_command_mux.md R111) -/

/-- VALUE fills the low bits of a word, which its KIND and TARGET leave 0. -/
theorem cmdAssemble_eq_or_value {k : BitVec 4} {t : BitVec 8} {header : CmdWord} (h : cmdAssemble k t 0#32 = header)
    (v : F32) : cmdAssemble k t v = header ||| v.setWidth 48 := by
  have hv : v.setWidth 48 = (0#16 : BitVec 16) ++ v := by
    rw [BitVec.setWidth_eq_append (by decide)]
    rfl
  rw [← h, hv, cmdAssemble, cmdAssemble, BitVec.or_append, BitVec.or_zero, BitVec.zero_or]

/-- Settles O34: a duty word is its constant KIND and TARGET with the duty in the low bits, and the other words are constants
of the default configuration. -/
theorem sourceWordsMatchTheTable : Obligations.SourceWordsMatchTheTable := by
  have hlocal (v : F32) : cmdAssemble 0x1#4 0#8 v = 0x100000000000#48 ||| v.setWidth 48 :=
    cmdAssemble_eq_or_value (by decide) v
  have hbus (v : F32) : cmdAssemble 0x2#4 0x63#8 v = 0x206300000000#48 ||| v.setWidth 48 :=
    cmdAssemble_eq_or_value (by decide) v
  have hcur : cmdAssemble 0x3#4 0x63#8 0x3F800000#32 = 0x30633F800000#48 := by decide
  have hbrk : cmdAssemble 0x4#4 0x63#8 0x3F800000#32 = 0x40633F800000#48 := by decide
  refine ⟨fun _ _ _ => rfl, ?_⟩
  rintro M p rfl
  exact ⟨hlocal M, hlocal (M ^^^ 0x80000000#32), hbus M, hbus (M ^^^ 0x80000000#32),
    fun d => ⟨hcur, hbrk, sourceWord_ntl _ d⟩⟩

/-! ### Counting what fires -/

@[simp] theorem bit_true : bit true = 1 := rfl

@[simp] theorem bit_false : bit false = 0 := rfl

theorem bit_le_one (b : Bool) : bit b ≤ 1 := by cases b <;> decide

/-- Actions enabled by a wire count as often as the wire is 1. -/
theorem length_enabled {α : Type} (b : Bool) (l : List α) :
    (if b then l else []).length = l.length * bit b := by cases b <;> simp

theorem sum_enabled (b : Bool) (l : List Nat) : (if b then l else []).sum = l.sum * bit b := by
  cases b <;> simp

/-! ### The waits of a step (42_command_mux.md R118) -/

theorem sum_waits_stepActs (p : Params) (w : Wires) :
    (waits (stepActs p w)).sum =
      p.settleMs * (bit (w.fire .p) + bit (w.fire .a) + bit (w.fire .b)) + p.periodMs := by
  simp only [waits_stepActs, List.sum_append, sum_enabled, List.sum_singleton, Nat.mul_add]

theorem getLast?_stepActs (p : Params) (w : Wires) : (stepActs p w).getLast? = some (.wait p.periodMs) := by
  rw [stepActs, actsNeutral, ← List.append_assoc, List.getLast?_concat]
  rfl

/-- Settles O35: each fire enables one settle wait, and the period wait ends the action list. -/
theorem waitsOfAStepAddUp : Obligations.WaitsOfAStepAddUp :=
  ⟨fun _ => rfl, fun _ => rfl, fun siw s =>
    ⟨_, exec_step siw s, sum_waits_stepActs s.params (stepWires siw s), getLast?_stepActs s.params (stepWires siw s)⟩⟩

/-! ### CMD (42_command_mux.md R116) -/

theorem cmdAfter_eq_getLast? (acts : List Action) (c : CmdWord) :
    cmdAfter acts c = (emits acts).getLast?.getD c := List.getLastD_eq_getLast?

/-- The neutral's slot is the last that emits. -/
theorem cmdAfter_stepActs_of_neutral {p : Params} {w : Wires} (h : w.neutral = true) (c : CmdWord) :
    cmdAfter (stepActs p w) c = 0x100000000000#48 := by
  rw [cmdAfter, emits_stepActs, if_pos h, List.getLastD_concat, sourceWord_ntl]

theorem stepWires_neutral_eq_false_iff_of_not_fire {siw : Siw} {s : State} (h : (stepWires siw s).fire .p = false) :
    (stepWires siw s).neutral = false ↔ s.params.periodMs < s.cd := by
  rw [stepWires_neutral_eq_not_active, Bool.not_eq_false', stepState_active_iff_of_not_fire h]

/-- A step is silent when nothing fires and the drive has more than one period left. -/
theorem emits_stepState_eq_nil_iff (siw : Siw) (s : State) :
    emits (stepState siw s).acts = [] ↔
      (stepWires siw s).fire .p = false ∧ (stepWires siw s).fire .a = false ∧ (stepWires siw s).fire .b = false ∧
        s.active = true ∧ s.params.periodMs < s.cd := by
  have hactive : s.params.periodMs < s.cd → s.active = true := fun hcd =>
    s.active_iff.mpr (Nat.ne_zero_of_lt hcd)
  rw [stepState_acts, emits_stepActs_nil, and_iff_right_of_imp hactive]
  exact and_congr_right fun hp => by rw [stepWires_neutral_eq_false_iff_of_not_fire hp]

/-- Settles O36: CMD is read off the finished action list; without a fire of P a step has no neutral exactly when more than
one period is left. -/
theorem cmdHoldsTheLastEmittedWord : Obligations.CmdHoldsTheLastEmittedWord :=
  fun siw s => ⟨_, exec_step siw s, cmdAfter_eq_getLast? _ _, fun _ => emits_stepState_eq_nil_iff siw s,
    fun hn => cmdAfter_stepActs_of_neutral hn s.cmd⟩

/-! ### LDR (42_command_mux.md R117) -/

theorem ldrAfter_eq_getLast? (acts : List Action) (v : F32) :
    ldrAfter acts v = (((emits acts).filter isLocalDuty).map cmdValue).getLast?.getD v := List.getLastD_eq_getLast?

theorem ldrAfter_stepActs_of_neutral {p : Params} {w : Wires} (h : w.neutral = true) (v : F32) :
    ldrAfter (stepActs p w) v = F32.neutral := by
  rw [ldrAfter_stepActs, if_pos h]

/-- Without a toggle the only local word is the neutral. -/
theorem ldrAfter_stepActs_neutral_of_not_fire {p : Params} {w : Wires} (h : w.fire .p = false) :
    ldrAfter (stepActs p w) F32.neutral = F32.neutral := by
  rw [ldrAfter_stepActs, h]
  exact ite_self _

/-- Settles O37: LDR is read off the finished action list, in which only the toggle's local word and the neutral count, the
neutral last. -/
theorem ldrHoldsTheLastLocalDuty : Obligations.LdrHoldsTheLastLocalDuty := by
  refine fun siw s => ⟨_, exec_step siw s, ldrAfter_eq_getLast? _ _, fun hn => ldrAfter_stepActs_of_neutral hn s.ldr,
    fun hldr hf => ?_⟩
  rw [stepState_ldr, hldr]
  exact ldrAfter_stepActs_neutral_of_not_fire hf

/-! ### Bounds of a step (42_command_mux.md R119) -/

theorem length_emits_stepActs (p : Params) (w : Wires) :
    (emits (stepActs p w)).length =
      2 * bit (w.fire .p) + bit (w.fire .a) + bit (w.fire .b) + bit w.neutral := by
  simp [emits_stepActs, length_enabled, Nat.add_assoc]

theorem length_waits_stepActs (p : Params) (w : Wires) :
    (waits (stepActs p w)).length = bit (w.fire .p) + bit (w.fire .a) + bit (w.fire .b) + 1 := by
  simp [waits_stepActs, length_enabled, Nat.add_assoc]

/-- With an arm of more than one period a toggle's own tick does not run it out. -/
theorem not_fire_and_neutral {siw : Siw} {s : State} (h : s.params.periodMs < s.params.armMs) :
    ¬ ((stepWires siw s).fire .p = true ∧ (stepWires siw s).neutral = true) := by
  rintro ⟨hf, hn⟩
  rw [stepWires_neutral_eq_not_active, (stepState_active_iff_of_fire hf).mpr h] at hn
  exact absurd hn (by decide)

/-- Two conditions that exclude each other count at most once. -/
theorem bit_add_bit_le_one {a b : Bool} (h : ¬ (a = true ∧ b = true)) : bit a + bit b ≤ 1 := by
  cases a with
  | false => simpa using bit_le_one b
  | true =>
    have hb : b = false := Bool.eq_false_iff.mpr fun hb => h ⟨rfl, hb⟩
    simp [hb]

/-- Settles O38: the toggle emits two words, every other source one, and each slot that fires waits once; a toggle with an
arm of more than one period leaves no neutral. -/
theorem actionsOfAStepAreBounded : Obligations.ActionsOfAStepAreBounded := by
  intro siw s
  have hemits := length_emits_stepActs s.params (stepWires siw s)
  have hwaits := length_waits_stepActs s.params (stepWires siw s)
  have hp := bit_le_one ((stepWires siw s).fire .p)
  have ha := bit_le_one ((stepWires siw s).fire .a)
  have hb := bit_le_one ((stepWires siw s).fire .b)
  have hn := bit_le_one (stepWires siw s).neutral
  refine ⟨_, exec_step siw s, ?_, ?_, fun harm => ⟨not_fire_and_neutral harm, ?_⟩⟩
  · rw [stepState_acts]
    omega
  · rw [stepState_acts]
    omega
  · have hexcl := bit_add_bit_le_one (not_fire_and_neutral (siw := siw) harm)
    rw [stepState_acts]
    omega

end Sys2Proof.Machine
end

section
/-! The step as a whole (43_step.md): its registers, wires and action list read off the SIW and the start-of-step values. -/

namespace Sys2Proof.Machine

/-! ### Slots S3 to S5 from the SIW's bits -/

/-- The pins are active-low, so a pin bit of 1 is a released button (40_debounce.md R70, R75). -/
theorem updatedCount_not (p : Params) (c : Nat) (pin : Bool) :
    updatedCount p c (!pin) = if pin then c - 1 else satInc p.cntW c := by
  cases pin with
  | false => exact updatedCount_pressed p c
  | true => exact updatedCount_released p c

/-- `fire_P` of a step, from the comparator and the gate's bit (43_step.md R132). -/
theorem stepWires_fire_p_iff (siw : Siw) (s : State) :
    (stepWires siw s).fire .p = true ↔ (stepWires siw s).hitP = true ∨ siw.getLsbD 3 = true :=
  Wires.fire_p_iff _

theorem stepState_cntP_eq_ite (siw : Siw) (s : State) :
    (stepState siw s).cntP =
      if (stepWires siw s).hitP = true ∨ siw.getLsbD 3 = true then 0 else (stepWires siw s).uP :=
  clearedCount_fire_p _

theorem stepState_dir_eq_ite (siw : Siw) (s : State) :
    (stepState siw s).dir =
      if (stepWires siw s).hitP = true ∨ siw.getLsbD 3 = true then !s.dir else s.dir := by
  simp only [stepState_dir, stepWires_dir1, toggledDir, stepWires_fire_p_iff]

theorem stepState_cd_eq_ite (siw : Siw) (s : State) :
    (stepState siw s).cd =
      (if (stepWires siw s).hitP = true ∨ siw.getLsbD 3 = true then s.params.armMs else s.cd) -
        s.params.periodMs := by
  simp only [stepState_cd, stepWires_cd2, tickedCount, satSub_eq_sub, armedCount, stepWires_fire_p_iff]

/-! ### The actions by slot -/

/-- Slot S5a emits with the direction the step ends in (43_step.md R133). -/
theorem actsPrimary_stepWires (siw : Siw) (s : State) :
    actsPrimary s.params (stepWires siw s) =
      if (stepWires siw s).hitP = true ∨ siw.getLsbD 3 = true then
        [.emit (cmdAssemble 0x1#4 0#8 (s.params.duty (stepState siw s).dir)),
          .emit (cmdAssemble 0x2#4 s.params.targetField (s.params.duty (stepState siw s).dir)),
          .wait s.params.settleMs]
      else [] := by
  simp only [actsPrimary, stepWires_fire_p_iff]
  rfl

/-- Slots S6 and S7: the neutral while the countdown is 0 after its tick, then the period wait. -/
theorem actsNeutral_stepWires (siw : Siw) (s : State) :
    actsNeutral s.params (stepWires siw s) =
      (if (stepState siw s).cd = 0 then [.emit 0x100000000000#48] else []) ++ [.wait s.params.periodMs] := by
  simp only [actsNeutral, stepWires_neutral_iff, sourceWord_ntl]
  rfl

theorem stepState_acts_eq_slots (siw : Siw) (s : State) :
    (stepState siw s).acts =
      (if (stepWires siw s).hitP = true ∨ siw.getLsbD 3 = true then
        [.emit (cmdAssemble 0x1#4 0#8 (s.params.duty (stepState siw s).dir)),
          .emit (cmdAssemble 0x2#4 s.params.targetField (s.params.duty (stepState siw s).dir)),
          .wait s.params.settleMs] else []) ++
      (if (stepWires siw s).hitA = true then
        [.emit (cmdAssemble 0x3#4 s.params.targetField s.params.curA), .wait s.params.settleMs] else []) ++
      (if (stepWires siw s).hitB = true then
        [.emit (cmdAssemble 0x4#4 s.params.targetField s.params.curB), .wait s.params.settleMs] else []) ++
      (if (stepState siw s).cd = 0 then [.emit 0x100000000000#48] else []) ++ [.wait s.params.periodMs] := by
  rw [stepState_acts, stepActs, actsPrimary_stepWires, actsNeutral_stepWires, ← List.append_assoc]
  rfl

/-- Settles O42: every wire and register is a function of the SIW and the old registers, and each slot contributes its part of
the action list; the samples, the comparators and the clears of A and B are so by definition. -/
theorem stepActsInSlotOrder : Obligations.StepActsInSlotOrder := fun siw s =>
  ⟨stepState siw s, exec_step siw s, stepState_params siw s, stepState_port siw s, stepState_cd siw s,
    stepState_dir siw s, stepWires_sP siw s, stepWires_sA siw s, stepWires_sB siw s, stepWires_ext siw s,
    updatedCount_not s.params s.cntP _, updatedCount_not s.params s.cntA _, updatedCount_not s.params s.cntB _,
    stepWires_hit siw s .p, stepWires_hit siw s .a, stepWires_hit siw s .b,
    stepState_cntP_eq_ite siw s, stepState_cntA siw s, stepState_cntB siw s,
    stepState_dir_eq_ite siw s, stepState_cd_eq_ite siw s, stepState_acts_eq_slots siw s,
    cmdAfter_eq_getLast? _ _, ldrAfter_eq_getLast? _ _⟩

/-! ### The toggle's own step (43_step.md R137) -/

/-- Settles O46: the arm is loaded before the tick of the same step, and what is left of an arm of more than one period is not
0; in an admitted configuration no other source has the neutral's word. -/
theorem toggleStepTicksItsArm : Obligations.ToggleStepTicksItsArm := by
  intro siw s hl hf
  refine ⟨_, exec_step siw s, stepState_cd_of_fire hf, fun harm => ?_⟩
  have hn : ¬ (stepWires siw s).neutral = true := fun hn => not_fire_and_neutral harm ⟨hf, hn⟩
  exact ⟨Bool.eq_false_iff.mpr hn, mt (neutral_mem_emits_stepActs_iff hl _).mp hn⟩

end Sys2Proof.Machine
end

section
/-! RESET and the first step after it (70_reset_and_hazards.md R170). -/

namespace Sys2Proof.Machine

theorem exec_reset (s : State) : exec .reset s = .next s.applyReset := rfl

/-- Whatever RESET answers is the reset state. -/
theorem eq_applyReset_of_exec_reset {s t : State} (h : exec .reset s = .next t) : t = s.applyReset :=
  (Host.Outcome.next.inj h).symm

theorem State.applyReset_cnt (s : State) (i : DbcInst) : s.applyReset.cnt i = 0 := by cases i <;> rfl

theorem State.applyReset_idem (s : State) : s.applyReset.applyReset = s.applyReset := rfl

theorem sample_siwIdle (i : DbcInst) : sample siwIdle i = false := by cases i <;> rfl

/-- A released button takes its count down, and a count in range stays at most its threshold (40_debounce.md R70, R72). -/
theorem stepWires_not_fire_of_released {siw : Siw} {s : State} {i : DbcInst} (hc : s.cnt i ≤ threshold s.params i)
    (hs : sample siw i = false) (hx : extBit siw = false) : (stepWires siw s).fire i = false := by
  rw [stepWires_fire_of_not_ext s i hx, stepWires_u, hs, updatedCount_released]
  exact decide_eq_false (by omega)

/-- Slots S5a to S5c are silent without a fire (43_step.md R133 to R135). -/
theorem stepActs_of_not_fire {p : Params} {w : Wires} (h : ∀ i, w.fire i = false) : stepActs p w = actsNeutral p w := by
  simp [stepActs, actsPrimary, actsAuxA, actsAuxB, h]

/-- `STEP -` in NEUTRAL with the counters in range emits the neutral alone and waits one period. -/
theorem stepState_acts_of_idle {s : State} (hc : ∀ i, s.cnt i ≤ threshold s.params i) (hcd : s.cd = 0) :
    (stepState siwIdle s).acts = [.emit 0x100000000000#48, .wait s.params.periodMs] := by
  have hf (i : DbcInst) : (stepWires siwIdle s).fire i = false :=
    stepWires_not_fire_of_released (hc i) (sample_siwIdle i) rfl
  have hcd' : (stepState siwIdle s).cd = 0 := by rw [stepState_cd_of_not_fire (hf .p), hcd, Nat.zero_sub]
  rw [stepState_acts, stepActs_of_not_fire hf, actsNeutral_stepWires, if_pos hcd', List.singleton_append]

/-- Settles O13: the registers RESET writes do not depend on the ones it overwrites, and the step after it starts in NEUTRAL
with every counter at 0. -/
theorem resetWritesEveryRegister : Obligations.ResetWritesEveryRegister := by
  refine ⟨exec_reset, fun s t h => ?_, fun s t h => ?_⟩
  · rw [eq_applyReset_of_exec_reset h, exec_reset, State.applyReset_idem]
  · rw [eq_applyReset_of_exec_reset h]
    have hc (i : DbcInst) : s.applyReset.cnt i ≤ threshold s.applyReset.params i :=
      s.applyReset_cnt i ▸ Nat.zero_le _
    exact ⟨_, exec_step siwIdle s.applyReset, stepState_acts_of_idle hc s.applyReset_cd⟩

end Sys2Proof.Machine
end

section
/-! The decoder and the encoder (30_encoding.md R55 to R60): they are inverse to each other, and which words they leave out. -/

namespace Sys2Proof

/-! ### Decode after encode -/

theorem decode_uopAssemble (o : BitVec 5) (inst : BitVec 2) (x : BitVec 4) :
    decode (uopAssemble o inst x) = decodeOp o inst x := by
  simp [decode, uopAssemble, decodeUop]

theorem decodeCmd_localDuty (v : F32) : decodeCmd (cmdAssemble kindLocalDuty 0#8 v) = .ok (.cmdLocalDuty v) := by
  simp [decodeCmd, kindLocalDuty]

theorem decodeCmd_busDuty (t : BitVec 8) (v : F32) :
    decodeCmd (cmdAssemble kindBusDuty t v) = .ok (.cmdBusDuty t v) := by
  simp [decodeCmd, kindBusDuty]

theorem decodeCmd_busCurrent (t : BitVec 8) (v : F32) :
    decodeCmd (cmdAssemble kindBusCurrent t v) = .ok (.cmdBusCurrent t v) := by
  simp [decodeCmd, kindBusCurrent]

theorem decodeCmd_busCurrentBrake (t : BitVec 8) (v : F32) :
    decodeCmd (cmdAssemble kindBusCurrentBrake t v) = .ok (.cmdBusCurrentBrake t v) := by
  simp [decodeCmd, kindBusCurrentBrake]

/-- A UOP7 word is read back by its fields, where every OPID and INST is a constant and only STEP's operand is free; a command
word by its KIND. -/
theorem decode_encode (i : Instr) : decode (encode i) = .ok i := by
  cases i with
  | step | reset | dbcUpdateP | dbcUpdateA | dbcUpdateB | dbcCmpP | dbcCmpA | dbcCmpB | dbcClearP | dbcClearA
  | dbcClearB | seqToggle | seqDriveDuty | seqArm | seqTick | seqNeutral => exact decode_uopAssemble _ _ _
  | muxEmit src => cases src <;> exact decode_uopAssemble _ _ _
  | muxWait sel => cases sel <;> exact decode_uopAssemble _ _ _
  | cmdNone => decide
  | cmdLocalDuty v => exact decodeCmd_localDuty v
  | cmdBusDuty t v => exact decodeCmd_busDuty t v
  | cmdBusCurrent t v => exact decodeCmd_busCurrent t v
  | cmdBusCurrentBrake t v => exact decodeCmd_busCurrentBrake t v

/-- Settles O2: the fields of an assembled word are read back, and they select the operation they were assembled for. -/
theorem decodeEncodeRoundTrip : Obligations.DecodeEncodeRoundTrip := decode_encode

/-- Settles O1: the nine words are constants. -/
theorem decodeReadsSpecWords : Obligations.DecodeReadsSpecWords :=
  ⟨rfl, rfl, rfl, rfl, rfl, rfl, rfl, rfl, rfl⟩

/-! ### Encode after decode -/

theorem withoutInst_eq_ok_iff {inst : BitVec 2} {r : Except Reject Instr} {i : Instr} :
    withoutInst inst r = .ok i ↔ inst = 0#2 ∧ r = .ok i := by
  unfold withoutInst
  split <;> simp_all

theorem withoutOperand_eq_ok_iff {x : BitVec 4} {i j : Instr} :
    withoutOperand x j = .ok i ↔ x = 0#4 ∧ j = i := by
  unfold withoutOperand
  split <;> simp_all

section
variable {o : BitVec 5} {inst : BitVec 2} {x : BitVec 4} {i : Instr}

/-- An operation outside the DBC family and without an operand has one word. -/
theorem encode_of_plain {j : Instr} (hj : encode j = uopAssemble o 0#2 0#4)
    (h : withoutInst inst (withoutOperand x j) = .ok i) : encode i = uopAssemble o inst x := by
  obtain ⟨rfl, h⟩ := withoutInst_eq_ok_iff.mp h
  obtain ⟨rfl, rfl⟩ := withoutOperand_eq_ok_iff.mp h
  exact hj

/-- The three operations of a DBC family have one word each. -/
theorem encode_of_byInst {p a b : Instr} (hp : encode p = uopAssemble o 0#2 0#4)
    (ha : encode a = uopAssemble o 1#2 0#4) (hb : encode b = uopAssemble o 2#2 0#4)
    (h : byInst inst x p a b = .ok i) : encode i = uopAssemble o inst x := by
  unfold byInst at h
  split at h
  next hi =>
    obtain ⟨rfl, rfl⟩ := withoutOperand_eq_ok_iff.mp h
    rw [hp, BitVec.eq_of_toNat_eq (y := 0#2) hi]
  next hi =>
    obtain ⟨rfl, rfl⟩ := withoutOperand_eq_ok_iff.mp h
    rw [ha, BitVec.eq_of_toNat_eq (y := 1#2) hi]
  next hi =>
    obtain ⟨rfl, rfl⟩ := withoutOperand_eq_ok_iff.mp h
    rw [hb, BitVec.eq_of_toNat_eq (y := 2#2) hi]
  next => cases h

theorem eq_muxEmit_of_decodeSource (h : decodeSource x = .ok i) : ∃ src, i = .muxEmit src ∧ encodeSource src = x := by
  unfold decodeSource at h
  split at h
  next hx => exact ⟨.tdl, (Except.ok.inj h).symm, (BitVec.eq_of_toNat_eq hx).symm⟩
  next hx => exact ⟨.tdb, (Except.ok.inj h).symm, (BitVec.eq_of_toNat_eq hx).symm⟩
  next hx => exact ⟨.cur, (Except.ok.inj h).symm, (BitVec.eq_of_toNat_eq hx).symm⟩
  next hx => exact ⟨.brk, (Except.ok.inj h).symm, (BitVec.eq_of_toNat_eq hx).symm⟩
  next hx => exact ⟨.ntl, (Except.ok.inj h).symm, (BitVec.eq_of_toNat_eq hx).symm⟩
  next => cases h

theorem eq_muxWait_of_decodeWait (h : decodeWait x = .ok i) : ∃ sel, i = .muxWait sel ∧ encodeWait sel = x := by
  unfold decodeWait at h
  split at h
  next hx => exact ⟨.settle, (Except.ok.inj h).symm, (BitVec.eq_of_toNat_eq hx).symm⟩
  next hx => exact ⟨.period, (Except.ok.inj h).symm, (BitVec.eq_of_toNat_eq hx).symm⟩
  next => cases h

/-- The OPID table has one row per operation family, so the operation gives the three fields back. -/
theorem encode_of_decodeOp (h : decodeOp o inst x = .ok i) : encode i = uopAssemble o inst x := by
  have code {n : BitVec 5} (ho : o.toNat = n.toNat) : o = n := BitVec.eq_of_toNat_eq ho
  unfold decodeOp at h
  split at h
  next ho =>
    obtain ⟨rfl, h⟩ := withoutInst_eq_ok_iff.mp h
    rw [← Except.ok.inj h, code (n := 0x00#5) ho, encode]
  next ho => obtain rfl := code (n := 0x01#5) ho; exact encode_of_plain rfl h
  next ho => obtain rfl := code (n := 0x02#5) ho; exact encode_of_byInst rfl rfl rfl h
  next ho => obtain rfl := code (n := 0x03#5) ho; exact encode_of_byInst rfl rfl rfl h
  next ho => obtain rfl := code (n := 0x04#5) ho; exact encode_of_byInst rfl rfl rfl h
  next ho => obtain rfl := code (n := 0x05#5) ho; exact encode_of_plain rfl h
  next ho => obtain rfl := code (n := 0x06#5) ho; exact encode_of_plain rfl h
  next ho => obtain rfl := code (n := 0x07#5) ho; exact encode_of_plain rfl h
  next ho => obtain rfl := code (n := 0x08#5) ho; exact encode_of_plain rfl h
  next ho => obtain rfl := code (n := 0x09#5) ho; exact encode_of_plain rfl h
  next ho =>
    obtain ⟨rfl, h⟩ := withoutInst_eq_ok_iff.mp h
    obtain ⟨src, rfl, rfl⟩ := eq_muxEmit_of_decodeSource h
    rw [code (n := 0x0A#5) ho, encode]
  next ho =>
    obtain ⟨rfl, h⟩ := withoutInst_eq_ok_iff.mp h
    obtain ⟨sel, rfl, rfl⟩ := eq_muxWait_of_decodeWait h
    rw [code (n := 0x0B#5) ho, encode]
  next => cases h

end

theorem encode_of_decodeUop {b : BitVec 16} {i : Instr} (h : decodeUop b = .ok i) : encode i = .uop b := by
  unfold decodeUop at h
  split at h
  next hspare => rw [encode_of_decodeOp h, uopAssemble_fields b hspare]
  next => cases h

theorem encode_of_decodeCmd {w : CmdWord} {i : Instr} (h : decodeCmd w = .ok i) : encode i = .cmd w := by
  unfold decodeCmd at h
  split at h
  next => cases h
  next hrsvd =>
    have hw (k : BitVec 4) (hk : (cmdKind w).toNat = k.toNat) :
        cmdAssemble k (cmdTarget w) (cmdValue w) = w := by
      rw [← BitVec.eq_of_toNat_eq hk, cmdAssemble_fields w (not_not.mp hrsvd)]
    split at h
    next hk =>
      split at h
      next hfields =>
        obtain ⟨ht, hv⟩ := hfields
        rw [← Except.ok.inj h, encode, ← ht, ← hv, hw kindNone hk]
      next => cases h
    next hk =>
      split at h
      next ht => rw [← Except.ok.inj h, encode, ← ht, hw kindLocalDuty hk]
      next => cases h
    next hk => rw [← Except.ok.inj h, encode, hw kindBusDuty hk]
    next hk => rw [← Except.ok.inj h, encode, hw kindBusCurrent hk]
    next hk => rw [← Except.ok.inj h, encode, hw kindBusCurrentBrake hk]
    next => cases h

/-- Decoding and encoding are inverse to each other, so a word names an operation exactly when it is its encoding. -/
theorem decode_eq_ok_iff {r : RawWord} {i : Instr} : decode r = .ok i ↔ encode i = r := by
  refine ⟨fun h => ?_, fun h => h ▸ decode_encode i⟩
  cases r with
  | uop b => exact encode_of_decodeUop h
  | cmd w => exact encode_of_decodeCmd h

/-- Settles O3: every branch that accepts has fixed the bits it does not hand on. -/
theorem encodeDecodeRoundTrip : Obligations.EncodeDecodeRoundTrip := fun _ _ => decode_eq_ok_iff.mp

/-! ### Reserved UOP7 words (30_encoding.md R60) -/

/-- OPID and INST of an operation of the table: INST 0b11 names no circuit, and outside the DBC family INST is 0b00. -/
def IsUopCode (o : BitVec 5) (inst : BitVec 2) : Prop :=
  o.toNat < 0x0C ∧ inst ≠ 0b11#2 ∧ (inst = 0b00#2 ∨ o = 0x02#5 ∨ o = 0x03#5 ∨ o = 0x04#5)

theorem isUopCode_of_uopAssemble {o : BitVec 5} {inst : BitVec 2} {x : BitVec 4} {b : BitVec 16}
    (h : uopAssemble o inst x = .uop b) (hcode : IsUopCode o inst) : IsUopCode (uopOpid b) (uopInst b) := by
  rw [← RawWord.uop.inj h, uopOpid_assemble, uopInst_assemble]
  exact hcode

theorem isUopCode_of_encode {i : Instr} {b : BitVec 16} (h : encode i = .uop b) :
    IsUopCode (uopOpid b) (uopInst b) := by
  cases i with
  | step | reset | dbcUpdateP | dbcUpdateA | dbcUpdateB | dbcCmpP | dbcCmpA | dbcCmpB | dbcClearP | dbcClearA
  | dbcClearB | seqToggle | seqDriveDuty | seqArm | seqTick | seqNeutral | muxEmit | muxWait =>
    exact isUopCode_of_uopAssemble h (by unfold IsUopCode; decide)
  | cmdNone | cmdLocalDuty | cmdBusDuty | cmdBusCurrent | cmdBusCurrentBrake => cases h

theorem decode_uop_error {b : BitVec 16} (h : ¬ IsUopCode (uopOpid b) (uopInst b)) :
    ∃ why, decode (.uop b) = .error why := by
  cases hd : decode (.uop b) with
  | error why => exact ⟨why, rfl⟩
  | ok i => exact absurd (isUopCode_of_encode (decode_eq_ok_iff.mp hd)) h

end Sys2Proof
end

section
/-! What the machine's step does with the oldest presented word (60_exceptions.md R151, R165). -/

namespace Sys2Proof.Machine

theorem step_of_decode {s : State} {r : RawWord} {rest : List RawWord} {i : Instr} (hl : s.params.legal = true)
    (hp : s.port = r :: rest) (hd : decode r = .ok i) : step s = exec i (s.withPort rest) := by
  rw [step, take_cons s r rest i hl hp hd]

theorem step_of_decode_error {s : State} {r : RawWord} {rest : List RawWord} {why : Reject}
    (hl : s.params.legal = true) (hp : s.port = r :: rest) (hd : decode r = .error why) :
    step s = .refused (.badWord why) := by
  rw [step, take_bad s r rest why hl hp hd]

/-- An operation presented ahead of the others is the one that runs, and the port is then as before. -/
theorem step_presentFirst_encode {s : State} (i : Instr) (hl : s.params.legal = true) :
    step (s.presentFirst (encode i)) = exec i s :=
  step_of_decode hl rfl (decode_encode i)

theorem exec_ne_fault (i : Instr) (s : State) (f : Fault) : exec i s ≠ .fault f := by
  by_cases h : i = .cmdNone
  · subst h
    simp [exec_cmdNone]
  · obtain ⟨t, ht⟩ := exec_completes h s
    simp [ht]

theorem step_ne_fault (s : State) (f : Fault) : step s ≠ .fault f := by
  rcases take_cases s with ⟨_, ht⟩ | ⟨_, _, ht⟩ | ⟨_, _, _, _, _, _, ht⟩ | ⟨_, rest, i, _, _, _, ht⟩
  · simp [step, ht]
  · simp [step, ht]
  · simp [step, ht]
  · simpa [step, ht] using exec_ne_fault i (s.withPort rest) f

/-- Settles O8: the operation runs on the state with the rest of the port. -/
theorem stepRunsTheDecodedOperation : Obligations.StepRunsTheDecodedOperation :=
  fun _ _ _ _ => step_of_decode

/-- Settles O9: an empty port gives no operation. -/
theorem stepHoldsWithNothingPresented : Obligations.StepHoldsWithNothingPresented := by
  intro s hl hp
  rw [step, take_empty s hl hp]

/-- Settles O11: the machine refuses or runs an operation, no operation faults, and CMD.NONE alone does not complete. -/
theorem stepNeverFaultsAndAlwaysCompletes : Obligations.StepNeverFaultsAndAlwaysCompletes :=
  ⟨step_ne_fault, fun s siw hl => ⟨_, (step_presentFirst_encode (.step siw) hl).trans (exec_step siw s)⟩,
    fun _ hl => ⟨_, (step_presentFirst_encode .reset hl).trans (exec_reset _)⟩⟩

/-- Settles O4: a word on one of the three grounds has fields that no operation has, so it does not decode. -/
theorem reservedUopWordsAreRefused : Obligations.ReservedUopWordsAreRefused := by
  intro s b rest hl hp hground
  have hcode : ¬ IsUopCode (uopOpid b) (uopInst b) := by
    rintro ⟨hopid, hinst, hdbc⟩
    rcases hground with h | h | ⟨h0, h2, h3, h4⟩
    · omega
    · exact hinst h
    · exact hdbc.elim h0 fun h => h.elim h2 fun h => h.elim h3 h4
  obtain ⟨why, hd⟩ := decode_uop_error hcode
  exact ⟨why, step_of_decode_error hl hp hd⟩

/-- The carrier of STEP has the SIW in bits [11:8] and no other bit. -/
theorem encode_step (siw : Siw) : encode (.step siw) = .uop (0#4 ++ siw ++ 0b00000000#8) := by
  revert siw
  decide

/-- Settles O7: the word is STEP's own, and a step drives its samples and EXT from the SIW. -/
theorem everySiwIsLegal : Obligations.EverySiwIsLegal := by
  intro siw s hl
  rw [← encode_step, step_presentFirst_encode _ hl]
  exact ⟨_, exec_step siw s, stepWires_sP siw s, stepWires_sA siw s, stepWires_sB siw s, stepWires_ext siw s⟩

end Sys2Proof.Machine
end

section
/-! Command words (30_encoding.md R55 to R59): the ill-formed ones, those a step emits, and the word `CMD` holds. -/

namespace Sys2Proof.Machine

/-! ### Ill-formed words (30_encoding.md R59) -/

theorem illFormedWord_cmdAssemble (k : BitVec 4) (t : BitVec 8) (v : F32) :
    illFormedWord (cmdAssemble k t v) ↔ k = 0x0#4 ∨ 5 ≤ k.toNat ∨ (k = 0x1#4 ∧ t ≠ 0#8) := by
  simp [illFormedWord]

theorem kind_eq_of_command {k : BitVec 4} (hnone : k ≠ 0x0#4) (hreserved : k.toNat < 5) :
    k = kindLocalDuty ∨ k = kindBusDuty ∨ k = kindBusCurrent ∨ k = kindBusCurrentBrake := by
  revert k
  decide

/-- The operation a well-formed word names. -/
theorem exists_decode_of_not_illFormedWord {w : CmdWord} (h : ¬ illFormedWord w) :
    ∃ i, decode (.cmd w) = .ok i ∧ i ≠ .cmdNone := by
  simp only [illFormedWord, not_or, not_le, not_and, not_not] at h
  obtain ⟨hnone, hreserved, hrsvd, hlocal⟩ := h
  obtain ⟨k, t, v, rfl⟩ : ∃ k t v, w = cmdAssemble k t v := ⟨_, _, _, (cmdAssemble_fields w hrsvd).symm⟩
  simp only [cmdKind_cmdAssemble, cmdTarget_cmdAssemble] at hnone hreserved hlocal
  obtain rfl | rfl | rfl | rfl := kind_eq_of_command hnone hreserved
  · obtain rfl := hlocal rfl
    exact ⟨_, decodeCmd_localDuty v, by simp⟩
  · exact ⟨_, decodeCmd_busDuty t v, by simp⟩
  · exact ⟨_, decodeCmd_busCurrent t v, by simp⟩
  · exact ⟨_, decodeCmd_busCurrentBrake t v, by simp⟩

/-- A word is ill-formed exactly when it names no command but NONE. -/
theorem illFormedWord_iff (w : CmdWord) :
    illFormedWord w ↔ ∀ i, decode (.cmd w) = .ok i → i = .cmdNone := by
  constructor
  · intro hill i hd
    have hw := decode_eq_ok_iff.mp hd
    cases i with
    | cmdNone => rfl
    | cmdLocalDuty | cmdBusDuty | cmdBusCurrent | cmdBusCurrentBrake =>
      rw [← RawWord.cmd.inj hw, illFormedWord_cmdAssemble] at hill
      simp [kindLocalDuty, kindBusDuty, kindBusCurrent, kindBusCurrentBrake] at hill
    | _ => cases hw
  · intro h
    by_contra hgood
    obtain ⟨i, hd, hne⟩ := exists_decode_of_not_illFormedWord hgood
    exact hne (h i hd)

/-- The word of every source names a command, so none is ill-formed. -/
theorem not_illFormedWord_sourceWord (p : Params) (d : Bool) (src : Source) :
    ¬ illFormedWord (sourceWord p d src) := by
  rw [illFormedWord_iff]
  intro h
  have hnone := h _ (decodeCmd_sourceWord p d src)
  cases src <;> cases hnone

theorem checkWord_eq_none_iff (w : CmdWord) : checkWord w = none ↔ ¬ illFormedWord w := by
  rw [illFormedWord_iff, checkWord]
  cases decode (.cmd w) with
  | error why => simp
  | ok i => by_cases hi : i = .cmdNone <;> simp [hi]

theorem checkEmissions_eq_none_iff (ws : List CmdWord) :
    checkEmissions ws = none ↔ ∀ w ∈ ws, ¬ illFormedWord w := by
  induction ws with
  | nil => simp [checkEmissions]
  | cons w ws ih =>
    rw [List.forall_mem_cons, ← ih, ← checkWord_eq_none_iff, checkEmissions]
    cases checkWord w <;> simp

theorem step_of_illFormedWord {s : State} {w : CmdWord} {rest : List RawWord} (hl : s.params.legal = true)
    (hp : s.port = .cmd w :: rest) (hw : illFormedWord w) : ∃ r, step s = .refused r := by
  cases hd : decode (.cmd w) with
  | error why => exact ⟨_, step_of_decode_error hl hp hd⟩
  | ok i =>
    obtain rfl := (illFormedWord_iff w).mp hw i hd
    exact ⟨_, (step_of_decode hl hp hd).trans (exec_cmdNone _)⟩

/-- Settles O5: a word is ill-formed exactly when it names no command but NONE, and both the checker and the machine refuse
such a word, while every source's word names another command. -/
theorem illFormedWordsNeverEmittedAndRefused : Obligations.IllFormedWordsNeverEmittedAndRefused := by
  refine ⟨fun siw s => ⟨_, exec_step siw s, fun w hw => ?_⟩, fun ws => ?_, fun s w rest hl hp hill => ?_⟩
  · obtain ⟨src, rfl⟩ := mem_emits_stepActs hw
    exact not_illFormedWord_sourceWord _ _ src
  · rw [← Option.ne_none_iff_exists', Ne, checkEmissions_eq_none_iff]
    push Not
    rfl
  · exact step_of_illFormedWord hl hp hill

/-! ### The words of a step, in an admitted configuration (30_encoding.md R57, R58) -/

section
variable {p : Params}

theorem toNat_targetField (h : p.legal = true) : p.targetField.toNat = p.targetId := by
  obtain ⟨-, -, -, htarget, -, -⟩ := p.legal_iff_constraints.mp h
  rw [Params.targetField, BitVec.toNat_ofNat, Nat.mod_eq_of_lt (Nat.lt_succ_of_le htarget)]

theorem sourceWord_names_command (h : p.legal = true) (d : Bool) (src : Source) :
    ∃ i, decode (.cmd (sourceWord p d src)) = .ok i ∧ i.WellFormed ∧ i ≠ .cmdNone := by
  obtain ⟨-, -, -, -, hduty, hcur⟩ := p.legal_iff.mp h
  obtain ⟨hA, hB⟩ := p.legalCurrents_iff.mp hcur
  have hdrive := p.duty_isDriveDuty d hduty
  refine ⟨_, decodeCmd_sourceWord p d src, ?_⟩
  cases src with
  | tdl => exact ⟨by simp [Instr.WellFormed, Instr.wellFormed, F32.isLocalDuty, hdrive], by simp⟩
  | tdb => exact ⟨hdrive, by simp⟩
  | cur => exact ⟨hA, by simp⟩
  | brk => exact ⟨hB, by simp⟩
  | ntl => exact ⟨by simp [Instr.WellFormed, Instr.wellFormed, F32.isLocalDuty], by simp⟩

theorem sourceTarget_of_local {src : Source} (d : Bool) (h : isLocalDuty (sourceWord p d src) = true) :
    sourceTarget p src = 0#8 := by
  rw [isLocalDuty_sourceWord] at h
  cases src with
  | tdl | ntl => rfl
  | tdb | cur | brk => cases h

theorem sourceTarget_of_bus {src : Source} (d : Bool) (h : isBusKind (sourceWord p d src) = true) :
    sourceTarget p src = p.targetField := by
  rw [isBusKind_sourceWord] at h
  cases src with
  | tdl | ntl => cases h
  | tdb | cur | brk => rfl

theorem duty_eq_or (d : Bool) : p.duty d = p.maxDutyWord ∨ p.duty d = p.maxDutyWord ^^^ 0x80000000#32 := by
  cases d with
  | false => exact .inr rfl
  | true => exact .inl rfl

theorem sourceValue_mem (d : Bool) (src : Source) :
    sourceValue p d src = 0x00000000#32 ∨ sourceValue p d src = p.maxDutyWord ∨
      sourceValue p d src = p.maxDutyWord ^^^ 0x80000000#32 ∨ sourceValue p d src = p.curA ∨
      sourceValue p d src = p.curB := by
  cases src with
  | tdl | tdb => exact .inr ((duty_eq_or d).elim .inl fun h => .inr (.inl h))
  | cur => exact .inr (.inr (.inr (.inl rfl)))
  | brk => exact .inr (.inr (.inr (.inr rfl)))
  | ntl => exact .inl rfl

end

/-- Settles O6: every word of a step is a source's, and each field of those is selected from the configuration. -/
theorem emittedWordsAreAdmittedCommands : Obligations.EmittedWordsAreAdmittedCommands := by
  refine fun siw s hl => ⟨_, exec_step siw s, fun w hw => ?_⟩
  obtain ⟨src, rfl⟩ := mem_emits_stepActs hw
  rw [cmdTarget_sourceWord, cmdValue_sourceWord]
  refine ⟨sourceWord_names_command hl _ src, sourceTarget_of_local _, fun hbus => ?_, sourceValue_mem _ src⟩
  rw [sourceTarget_of_bus _ hbus, toNat_targetField hl]

/-! ### CMD (42_command_mux.md R116, R124) -/

theorem cmdAfter_mem_or_eq (acts : List Action) (c : CmdWord) :
    cmdAfter acts c ∈ emits acts ∨ emits acts = [] ∧ cmdAfter acts c = c := by
  unfold cmdAfter
  cases emits acts with
  | nil => exact .inr ⟨rfl, rfl⟩
  | cons w ws =>
    rw [List.getLastD_cons]
    exact .inl List.getLastD_mem_cons

/-- After a step CMD holds a source's word, or the step was silent and CMD is as before. -/
theorem stepState_cmd_cases (siw : Siw) (s : State) :
    (∃ src, (stepState siw s).cmd = sourceWord s.params (stepWires siw s).dir1 src) ∨
      emits (stepState siw s).acts = [] ∧ (stepState siw s).cmd = s.cmd :=
  (cmdAfter_mem_or_eq (stepState siw s).acts s.cmd).imp_left mem_emits_stepActs

theorem State.cmdWellFormed_iff (s : State) : s.cmdWellFormed = true ↔ ∃ i, decodeCmd s.cmd = .ok i := by
  unfold State.cmdWellFormed
  cases decodeCmd s.cmd <;> simp

/-- What an operation may leave in CMD: what was there, or a word that decodes. -/
def CmdKeptOrDecodes (s t : State) : Prop := t.cmd = s.cmd ∨ ∃ i, decodeCmd t.cmd = .ok i

theorem cmdKeptOrDecodes_of_kept {s u t : State} (h : (.next u : Host.Outcome State Fault Refusal) = .next t)
    (hu : u.cmd = s.cmd) : CmdKeptOrDecodes s t :=
  .inl (Host.Outcome.next.inj h ▸ hu)

theorem cmdKeptOrDecodes_of_decodes {s u t : State} {i : Instr}
    (h : (.next u : Host.Outcome State Fault Refusal) = .next t) (hu : decodeCmd u.cmd = .ok i) :
    CmdKeptOrDecodes s t :=
  .inr ⟨i, Host.Outcome.next.inj h ▸ hu⟩

/-- RESET stores the word of CMD.NONE; an emission stores a source's word or the presented command. -/
theorem exec_cmdKeptOrDecodes {i : Instr} {s t : State} (h : exec i s = .next t) : CmdKeptOrDecodes s t := by
  cases i with
  | step siw =>
    rcases stepState_cmd_cases siw s with ⟨src, hsrc⟩ | ⟨-, hkept⟩
    · exact cmdKeptOrDecodes_of_decodes h (hsrc ▸ decodeCmd_sourceWord _ _ src)
    · exact cmdKeptOrDecodes_of_kept h hkept
  | reset => exact cmdKeptOrDecodes_of_decodes (i := .cmdNone) h (by rw [s.applyReset_cmd]; decide)
  | dbcUpdateP | dbcUpdateA | dbcUpdateB | dbcCmpP | dbcCmpA | dbcCmpB | seqDriveDuty | seqArm =>
    exact cmdKeptOrDecodes_of_kept h (s.drive_cmd _)
  | dbcClearP | dbcClearA | dbcClearB => exact cmdKeptOrDecodes_of_kept h (s.writeCnt_cmd _ _)
  | seqToggle => exact cmdKeptOrDecodes_of_kept h (((s.writeDir _).drive_cmd _).trans (s.writeDir_cmd _))
  | seqTick => exact cmdKeptOrDecodes_of_kept h (((s.writeCd _).drive_cmd _).trans (s.writeCd_cmd _))
  | seqNeutral =>
    cases hn : isNeutral s.wires.cd2 with
    | false => exact cmdKeptOrDecodes_of_kept h (by simp [hn])
    | true => exact cmdKeptOrDecodes_of_decodes (i := .cmdLocalDuty F32.neutral) h (by simp [hn]; decide)
  | muxEmit src => exact cmdKeptOrDecodes_of_decodes h (decodeCmd_sourceWord _ _ src)
  | muxWait => exact cmdKeptOrDecodes_of_kept h (s.wait_cmd _)
  | cmdNone => cases h
  | cmdLocalDuty v => exact cmdKeptOrDecodes_of_decodes h (decodeCmd_localDuty v)
  | cmdBusDuty a v => exact cmdKeptOrDecodes_of_decodes h (decodeCmd_busDuty a v)
  | cmdBusCurrent a v => exact cmdKeptOrDecodes_of_decodes h (decodeCmd_busCurrent a v)
  | cmdBusCurrentBrake a v => exact cmdKeptOrDecodes_of_decodes h (decodeCmd_busCurrentBrake a v)

/-- Settles O50: a machine step holds the state or runs one operation, which keeps CMD or stores a word that decodes. -/
theorem cmdStaysWellFormed : Obligations.CmdStaysWellFormed := by
  intro s t hs h
  rcases step_next_cases h with ⟨-, -, rfl⟩ | ⟨r, rest, i, -, -, -, hi⟩
  · exact hs
  · rw [State.cmdWellFormed_iff] at hs ⊢
    rcases exec_cmdKeptOrDecodes hi with hkept | hdecodes
    · rw [hkept, State.withPort_cmd]
      exact hs
    · exact hdecodes

/-- A step from NEUTRAL emits, so CMD reads KIND NONE after a step only if the step was silent in DRIVE and CMD read NONE
before it. -/
theorem stepState_cmdKind_ne_kindNone {siw : Siw} {s : State} (h : cmdKind s.cmd ≠ kindNone ∨ s.cd = 0) :
    cmdKind (stepState siw s).cmd ≠ kindNone := by
  rcases stepState_cmd_cases siw s with ⟨src, hsrc⟩ | ⟨hsilent, hkept⟩
  · rw [hsrc, cmdKind_sourceWord]
    exact sourceKind_ne_kindNone src
  · obtain ⟨-, -, -, hactive, -⟩ := (emits_stepState_eq_nil_iff siw s).mp hsilent
    rw [hkept]
    exact h.resolve_right (s.active_iff.mp hactive)

theorem stepStates_cmdKind_ne_kindNone {siws : List Siw} {s : State} (h : cmdKind s.cmd ≠ kindNone) :
    cmdKind (stepStates siws s).cmd ≠ kindNone := by
  induction siws generalizing s with
  | nil => exact h
  | cons siw siws ih => exact ih (stepState_cmdKind_ne_kindNone (.inl h))

/-- Settles O41: RESET leaves the block in NEUTRAL, so the first step emits, and no later step stores a word of KIND NONE. -/
theorem cmdReadsNoneUntilTheFirstStep : Obligations.CmdReadsNoneUntilTheFirstStep := by
  intro s t siws h
  obtain rfl := eq_applyReset_of_exec_reset h
  refine ⟨_, execAll_steps siws _, ?_⟩
  cases siws with
  | nil => simp [cmdKind]
  | cons siw siws =>
    have hfirst : cmdKind (stepState siw s.applyReset).cmd ≠ kindNone :=
      stepState_cmdKind_ne_kindNone (.inr s.applyReset_cd)
    exact iff_of_false (stepStates_cmdKind_ne_kindNone (siws := siws) hfirst) (List.cons_ne_nil siw siws)

end Sys2Proof.Machine
end

section
/-! A run that the environment drives (10_state.md R24; 41_sequencer.md R97; 42_command_mux.md R117): what its machine steps can
be, and the invariants they keep. -/

namespace Sys2Proof.Machine

/-! ### The steps of a driven run -/

theorem isEnvironmentWord_iff {r : RawWord} {i : Instr} (hd : decode r = .ok i) :
    isEnvironmentWord r = true ↔ i = .reset ∨ ∃ siw, i = .step siw := by
  unfold isEnvironmentWord
  rw [hd]
  cases i <;> simp

theorem State.environmentOnly_of_port_cons {s : State} {r : RawWord} {rest : List RawWord}
    (h : s.environmentOnly = true) (hp : s.port = r :: rest) :
    isEnvironmentWord r = true ∧ (s.withPort rest).environmentOnly = true := by
  simpa [State.environmentOnly, hp] using h

theorem State.Driven.withPort {s : State} {rest : List RawWord} (h : s.Driven)
    (hrest : (s.withPort rest).environmentOnly = true) : (s.withPort rest).Driven where
  legal := h.legal
  inRange := h.inRange
  environmentOnly := hrest

/-- A machine step of a driven run holds the state, or is a RESET or a STEP of the state with the rest of the port. -/
theorem driven_step_cases {s t : State} (hs : s.Driven) (h : step s = .next t) :
    t = s ∨ ∃ rest, (s.withPort rest).Driven ∧
      (t = (s.withPort rest).applyReset ∨ ∃ siw, t = stepState siw (s.withPort rest)) := by
  rcases step_next_cases h with ⟨-, -, ht⟩ | ⟨r, rest, i, -, hp, hd, hi⟩
  · exact .inl ht
  · obtain ⟨henv, hrest⟩ := State.environmentOnly_of_port_cons hs.environmentOnly hp
    refine .inr ⟨rest, hs.withPort hrest, ?_⟩
    rcases (isEnvironmentWord_iff hd).mp henv with rfl | ⟨siw, rfl⟩
    · exact .inl (eq_applyReset_of_exec_reset hi)
    · exact .inr ⟨siw, (Host.Outcome.next.inj hi).symm⟩

/-! ### The ranges of 10_state.md R24 -/

theorem stepState_cd_le {siw : Siw} {s : State} (h : s.cd ≤ s.params.armMs) :
    (stepState siw s).cd ≤ s.params.armMs := by
  cases hf : (stepWires siw s).fire .p with
  | true =>
    rw [stepState_cd_of_fire hf]
    exact Nat.sub_le _ _
  | false =>
    rw [stepState_cd_of_not_fire hf]
    exact (Nat.sub_le _ _).trans h

theorem inRange_stepState {siw : Siw} {s : State} (h : s.inRange = true) : (stepState siw s).inRange = true := by
  obtain ⟨-, hcd⟩ := (inRange_iff s).mp h
  exact (inRange_iff _).mpr ⟨stepState_cnt_le siw s, stepState_cd_le hcd⟩

theorem inRange_applyReset (s : State) : s.applyReset.inRange = true :=
  (inRange_iff _).mpr ⟨fun i => s.applyReset_cnt i ▸ Nat.zero_le _, Nat.zero_le _⟩

theorem State.Driven.stepState {s : State} (h : s.Driven) (siw : Siw) : (stepState siw s).Driven where
  legal := h.legal
  inRange := inRange_stepState h.inRange
  environmentOnly := h.environmentOnly

theorem State.Driven.applyReset {s : State} (h : s.Driven) : s.applyReset.Driven where
  legal := h.legal
  inRange := inRange_applyReset s
  environmentOnly := h.environmentOnly

/-- Settles O49: a STEP clears or stores a count at most the threshold and only lowers or re-arms CD, a RESET writes 0, and
neither presents a word. -/
theorem drivenRunStaysInRange : Obligations.DrivenRunStaysInRange := by
  intro s t hs h
  rcases driven_step_cases hs h with rfl | ⟨rest, hdriven, rfl | ⟨siw, rfl⟩⟩
  · exact hs
  · exact hdriven.applyReset
  · exact hdriven.stepState siw

/-! ### LDR and the sequencer -/

theorem State.driveAgrees_iff (s : State) :
    s.driveAgrees = true ↔ s.ldr = if s.active then s.params.duty s.dir else F32.neutral := beq_iff_eq

theorem driveAgrees_withPort {s : State} {rest : List RawWord} :
    (s.withPort rest).driveAgrees = s.driveAgrees := rfl

theorem driveAgrees_applyReset (s : State) : s.applyReset.driveAgrees = true := (State.driveAgrees_iff _).mpr rfl

/-- A step in DRIVE either toggles, and emits the new direction's duty, or keeps DIR and LDR, and was in DRIVE before. -/
theorem driveAgrees_stepState {siw : Siw} {s : State} (h : s.driveAgrees = true) :
    (stepState siw s).driveAgrees = true := by
  rw [State.driveAgrees_iff] at h ⊢
  rw [stepState_ldr, ldrAfter_stepActs, stepWires_neutral_eq_not_active]
  cases hact : (stepState siw s).active with
  | false => rfl
  | true =>
    cases hf : (stepWires siw s).fire .p with
    | true => rfl
    | false =>
      have hcd := (stepState_active_iff_of_not_fire hf).mp hact
      have hdrive : s.active = true := s.active_iff.mpr (Nat.ne_zero_of_lt hcd)
      rw [hdrive] at h
      rw [stepState_dir_of_not_fire hf]
      exact h

/-- Settles O51: LDR follows the last local word, which is the neutral in a step that ends in NEUTRAL and the new duty in one
that toggles; RESET clears CD and LDR together. -/
theorem localDriveAgreesWithSequencer : Obligations.LocalDriveAgreesWithSequencer := by
  intro s t hs hagrees h
  rcases driven_step_cases hs h with rfl | ⟨rest, -, rfl | ⟨siw, rfl⟩⟩
  · exact hagrees
  · exact driveAgrees_applyReset _
  · exact driveAgrees_stepState (driveAgrees_withPort.trans hagrees)

/-- Settles O48: with every register 0, every range and the two readings of CMD and LDR are those of the reset values; the open
MAX_DUTY is admitted. -/
theorem resetStateMeetsTheInvariants : Obligations.ResetStateMeetsTheInvariants :=
  ⟨⟨by decide, by decide, rfl⟩, driveAgrees_applyReset State.reset, by decide⟩

/-- Settles O12: the reset state and the default configuration are constants. -/
theorem resetStateHoldsSpecValues : Obligations.ResetStateHoldsSpecValues := by
  unfold Obligations.ResetStateHoldsSpecValues
  decide

end Sys2Proof.Machine
end

section
/-! Operations run by themselves (log 8, log 9), with the whole state they leave: SEQ_TICK, SEQ_NEUTRAL, MUX_EMIT, and a
presented command word. -/

namespace Sys2Proof.Machine

/-! ### The countdown (41_sequencer.md R94, R95) -/

theorem isNeutral_tickedCount (p : Params) (c : Nat) :
    isNeutral (tickedCount p c) = decide (c ≤ p.periodMs) := by
  rw [tickedCount, satSub_eq_sub, isNeutral, Bool.eq_iff_iff, beq_iff_eq, decide_eq_true_iff]
  exact Nat.sub_eq_zero_iff_le

theorem exec_seqTick (s : State) :
    exec .seqTick s = .next { s with
      cd := tickedCount s.params s.wires.cd1
      wires := { s.wires with
        cd2 := tickedCount s.params s.wires.cd1
        neutral := isNeutral (tickedCount s.params s.wires.cd1) } } := rfl

theorem stepWires_neutral_eq_decide (siw : Siw) (s : State) :
    (stepWires siw s).neutral = decide ((stepState siw s).cd = 0) := by
  rw [Bool.eq_iff_iff, stepWires_neutral_iff, decide_eq_true_iff]

theorem stepState_cd_eq_ite_fire (siw : Siw) (s : State) :
    (stepState siw s).cd =
      (if (stepWires siw s).fire .p then s.params.armMs else s.cd) - s.params.periodMs := by
  cases hf : (stepWires siw s).fire .p with
  | true => exact stepState_cd_of_fire hf
  | false => exact stepState_cd_of_not_fire hf

/-- Settles O27: the tick subtracts with saturation, and what is left is 0 exactly when no more than one period was. -/
theorem tickLowersTheCountdown : Obligations.TickLowersTheCountdown := by
  refine ⟨fun s => ?_, fun siw s =>
    ⟨_, exec_step siw s, stepState_cd_eq_ite_fire siw s, rfl, stepWires_neutral_eq_decide siw s⟩⟩
  rw [exec_seqTick, isNeutral_tickedCount]
  rfl

/-! ### Emissions latched at once (42_command_mux.md R116, R117) -/

theorem State.emit_of_isLocalDuty {s : State} {w : CmdWord} (h : isLocalDuty w = true) :
    s.emit w = { s with acts := s.acts ++ [.emit w], cmd := w, ldr := cmdValue w } := by
  rw [State.emit, if_pos h]

theorem State.emit_of_not_isLocalDuty {s : State} {w : CmdWord} (h : isLocalDuty w = false) :
    s.emit w = { s with acts := s.acts ++ [.emit w], cmd := w } := by
  rw [State.emit, h]
  rfl

theorem isLocalDuty_cmdAssemble (k : BitVec 4) (t : BitVec 8) (v : F32) :
    isLocalDuty (cmdAssemble k t v) = (k == kindLocalDuty) := by
  rw [isLocalDuty, cmdKind_cmdAssemble]

theorem State.emit_localDuty (s : State) (t : BitVec 8) (v : F32) :
    s.emit (cmdAssemble kindLocalDuty t v) = { s with
      acts := s.acts ++ [.emit (cmdAssemble kindLocalDuty t v)]
      cmd := cmdAssemble kindLocalDuty t v
      ldr := v } := by
  rw [State.emit_of_isLocalDuty (by rw [isLocalDuty_cmdAssemble, beq_self_eq_true]), cmdValue_cmdAssemble]

theorem State.emit_bus (s : State) {k : BitVec 4} (hk : (k == kindLocalDuty) = false) (t : BitVec 8) (v : F32) :
    s.emit (cmdAssemble k t v) = { s with
      acts := s.acts ++ [.emit (cmdAssemble k t v)]
      cmd := cmdAssemble k t v } :=
  State.emit_of_not_isLocalDuty ((isLocalDuty_cmdAssemble k t v).trans hk)

/-- The neutral's emission leaves its word in CMD and +0.0 in LDR. -/
theorem State.emit_neutral (s : State) : s.emit 0x100000000000#48 = { s with
    acts := s.acts ++ [.emit 0x100000000000#48], cmd := 0x100000000000#48, ldr := 0x00000000#32 } :=
  State.emit_of_isLocalDuty (by decide)

theorem exec_muxEmit (src : Source) (s : State) :
    exec (.muxEmit src) s = .next (s.emit (sourceWord s.params s.wires.dir1 src)) := rfl

theorem exec_seqNeutral (s : State) :
    exec .seqNeutral s = .next (neutralAction (isNeutral s.wires.cd2)
      (s.drive { s.wires with neutral := isNeutral s.wires.cd2 })) := rfl

/-- Settles O28: the wire is `cd2 = 0`, and it selects the emission. -/
theorem neutralEmitsWhileRunOut : Obligations.NeutralEmitsWhileRunOut := by
  intro s
  rw [exec_seqNeutral]
  constructor
  · intro h
    have hn : isNeutral s.wires.cd2 = true := beq_iff_eq.mpr h
    rw [hn, neutralAction, sourceWord_ntl, State.emit_neutral]
    rfl
  · intro h
    have hn : isNeutral s.wires.cd2 = false := beq_eq_false_iff_ne.mpr h
    rw [hn]
    rfl

/-- Settles O33: each source's word is assembled from its row of the table, and only the two local words reach LDR. -/
theorem muxEmitPresentsTheSourceWord : Obligations.MuxEmitPresentsTheSourceWord := by
  intro s
  refine ⟨congrArg _ (s.emit_localDuty _ _), congrArg _ (s.emit_bus (by decide) _ _),
    congrArg _ (s.emit_bus (by decide) _ _), congrArg _ (s.emit_bus (by decide) _ _), ?_⟩
  rw [exec_muxEmit, sourceWord_ntl, State.emit_neutral]

/-- Settles O39: a presented command is one emission of its own word. -/
theorem presentedCommandIsEmitted : Obligations.PresentedCommandIsEmitted :=
  ⟨fun v s => congrArg _ (s.emit_localDuty 0#8 v), fun a v s => congrArg _ (s.emit_bus (by decide) a v),
    fun a v s => congrArg _ (s.emit_bus (by decide) a v), fun a v s => congrArg _ (s.emit_bus (by decide) a v)⟩

end Sys2Proof.Machine
end

section
/-! What a step does not depend on (40_debounce.md R79; 43_step.md R132; 10_state.md sections 1 and 5), and the step in which
all three slots fire (43_step.md R136). -/

namespace Sys2Proof.Machine

/-! ### One debounce circuit (40_debounce.md R79) -/

/-- A circuit fires on its comparator; P fires on EXT too (43_step.md R132). -/
theorem stepWires_fire_congr {siw siw' : Siw} {s s' : State} {i : DbcInst}
    (hhit : (stepWires siw s).hit i = (stepWires siw' s').hit i) (hext : i = .p → extBit siw = extBit siw') :
    (stepWires siw s).fire i = (stepWires siw' s').fire i := by
  cases i with
  | p => exact congrArg₂ or hhit (hext rfl)
  | a | b => exact hhit

/-- Settles O22: the update, the comparator and the clear of a circuit are functions of its counter, its pin and, for P, EXT. -/
theorem debounceCircuitsDoNotInteract : Obligations.DebounceCircuitsDoNotInteract := by
  intro siw siw' s s' i hparams hcnt hsample hext
  have hu : (stepWires siw s).u i = (stepWires siw' s').u i := by
    rw [stepWires_u, stepWires_u, hparams, hcnt, hsample]
  have hhit : (stepWires siw s).hit i = (stepWires siw' s').hit i := by
    rw [stepWires_hit, stepWires_hit, hparams, hu]
  refine ⟨_, _, exec_step siw s, exec_step siw' s', hu, hhit, ?_⟩
  rw [stepState_cnt, stepState_cnt, stepWires_fire_congr hhit hext, hu]

/-! ### The old wires, actions and port -/

theorem stepWires_congr (siw : Siw) {s s' : State} (h : SameRegisters s s') : stepWires siw s = stepWires siw s' := by
  simp only [stepWires, h.params, h.cntP, h.cntA, h.cntB, h.dir, h.cd]

/-- Settles O47: the wires of a step are a function of the registers, and its actions and new registers of those wires. -/
theorem stepDependsOnRegistersOnly : Obligations.StepDependsOnRegistersOnly := by
  intro siw s s' h
  have hw := stepWires_congr siw h
  have hacts : (stepState siw s).acts = (stepState siw s').acts := by
    rw [stepState_acts, stepState_acts, hw, h.params]
  refine ⟨_, _, exec_step siw s, exec_step siw s', ?_, hacts, hw⟩
  constructor <;> simp [hw, h.params, h.cmd, h.ldr]

/-! ### The merge of the two requests (43_step.md R132) -/

/-- With `hit_P` the wires of two steps with equal pins differ in EXT only. -/
theorem stepWires_of_hitP {siw siw' : Siw} {s : State} (hs : ∀ i, sample siw i = sample siw' i)
    (hhit : (stepWires siw s).hitP = true) :
    stepWires siw' s = { stepWires siw s with ext := extBit siw' } := by
  have hcmp : comparator s.params .p (updatedCount s.params s.cntP (sample siw .p)) = true := hhit
  simp only [stepWires, ← hs, hcmp, Bool.true_or]

/-- With `hit_P` the fires do not depend on EXT. -/
theorem fire_withExt {w : Wires} (hhit : w.hitP = true) (e : Bool) (i : DbcInst) :
    ({ w with ext := e } : Wires).fire i = w.fire i := by
  cases i with
  | p => simp [Wires.fire, hhit]
  | a | b => rfl

theorem stepActs_withExt {w : Wires} (hhit : w.hitP = true) (e : Bool) (p : Params) :
    stepActs p { w with ext := e } = stepActs p w := by
  simp only [stepActs, actsPrimary, actsAuxA, actsAuxB, actsNeutral, fire_withExt hhit]

/-- With `hit_P` a step with equal pins leaves the same state but for the wire EXT. -/
theorem stepState_of_hitP {siw siw' : Siw} {s : State} (hs : ∀ i, sample siw i = sample siw' i)
    (hhit : (stepWires siw s).hitP = true) :
    stepState siw' s = (stepState siw s).drive { stepWires siw s with ext := extBit siw' } := by
  simp only [stepState, stepWires_of_hitP hs hhit, stepActs_withExt hhit, fire_withExt hhit]
  rfl

/-- Settles O45: both requests enter through `fire_P`, which `hit_P` alone makes 1. -/
theorem counterAndGateRequestsMerge : Obligations.CounterAndGateRequestsMerge := by
  refine ⟨fun siw s => ⟨_, exec_step siw s, stepWires_fire_p_iff siw s⟩, fun siw siw' s hp ha hb hhit => ?_⟩
  have hs (i : DbcInst) : sample siw i = sample siw' i := by
    cases i with
    | p => exact hp
    | a => exact ha
    | b => exact hb
  have hfire : (stepWires siw s).fire .p = true := Wires.fire_of_hit (i := .p) hhit
  refine ⟨_, _, exec_step siw s, exec_step siw' s, ?_, ?_, stepState_dir_of_fire hfire,
    stepState_cnt_of_fire hfire⟩
  · rw [stepState_of_hitP hs hhit]
    constructor <;> rfl
  · rw [stepState_of_hitP hs hhit]
    rfl

/-! ### All three slots (43_step.md R136) -/

/-- A pressed button whose count is at the threshold fires. -/
theorem stepWires_hit_of_threshold {siw : Siw} {s : State} {i : DbcInst} (hl : s.params.legal = true)
    (hc : s.cnt i = threshold s.params i) (hs : sample siw i = true) : (stepWires siw s).hit i = true := by
  rw [stepWires_hit, stepWires_u, hs, updatedCount_pressed_of_le_threshold hl hc.le, hc]
  exact decide_eq_true (Nat.lt_succ_self _)

/-- Settles O43: every comparator is 1, so every slot contributes its part of the action list; the arm of more than one period
leaves no neutral. -/
theorem allThreeFireInSlotOrder : Obligations.AllThreeFireInSlotOrder := by
  intro siw s hl harm hP hA hB hsP hsA hsB
  have hitP : (stepWires siw s).hitP = true := stepWires_hit_of_threshold (i := .p) hl hP hsP
  have hitA : (stepWires siw s).hitA = true := stepWires_hit_of_threshold (i := .a) hl hA hsA
  have hitB : (stepWires siw s).hitB = true := stepWires_hit_of_threshold (i := .b) hl hB hsB
  have fireP : (stepWires siw s).fire .p = true := Wires.fire_of_hit (i := .p) hitP
  have hcd : (stepState siw s).cd ≠ 0 := (State.active_iff _).mp ((stepState_active_iff_of_fire fireP).mpr harm)
  refine ⟨_, exec_step siw s, stepState_cnt_of_fire (i := .p) fireP, stepState_cnt_of_fire (i := .a) hitA,
    stepState_cnt_of_fire (i := .b) hitB, ?_⟩
  rw [stepState_acts_eq_slots, if_pos (.inl hitP), if_pos hitA, if_pos hitB, if_neg hcd, stepState_dir_of_fire fireP]
  rfl

end Sys2Proof.Machine
end

section
/-! STEP as the run of its slots (30_encoding.md R60, 43_step.md R131). An operation of a slot either works on the registers and
wires or performs actions, and the two kinds commute; so the run is the register part of the step, then its whole action list. -/

namespace Sys2Proof.Machine

/-! ### Performed actions and the registers -/

theorem perform_params (l : List Action) (s : State) : (State.perform l s).params = s.params := by rw [perform_eq]

theorem perform_wires (l : List Action) (s : State) : (State.perform l s).wires = s.wires := by rw [perform_eq]

/-- DBC_CLEAR reads no output of the multiplexer. -/
theorem dbcClear_perform (i : DbcInst) (l : List Action) (s : State) :
    dbcClear i (State.perform l s) = State.perform l (dbcClear i s) := by
  simp only [perform_eq]
  cases i <;> rfl

theorem exec_dbcClearA (s : State) : exec .dbcClearA s = .next (dbcClear .a s) := rfl

theorem exec_dbcClearB (s : State) : exec .dbcClearB s = .next (dbcClear .b s) := rfl

/-- The state SEQ_TICK leaves (41_sequencer.md R94). -/
def seqTicked (s : State) : State :=
  (s.writeCd (tickedCount s.params s.wires.cd1)).drive (s.wires.driveTick (tickedCount s.params s.wires.cd1))

theorem exec_seqTick_eq_seqTicked (s : State) : exec .seqTick s = .next (seqTicked s) := rfl

theorem seqTicked_perform (l : List Action) (s : State) :
    seqTicked (State.perform l s) = State.perform l (seqTicked s) := by
  simp only [perform_eq]
  rfl

/-! ### The slots that perform actions -/

section
variable (rest : List Slot) {s : State} {i : DbcInst}

theorem runSlots_fired_muxEmit (hf : s.wires.fire i = true) (src : Source) :
    runSlots (⟨.ifFire i, .muxEmit src⟩ :: rest) s = runSlots rest (s.emit (sourceWord s.params s.wires.dir1 src)) :=
  runSlots_fired rest hf (exec_muxEmit src s)

theorem runSlots_fired_muxWait (hf : s.wires.fire i = true) (sel : WaitSel) :
    runSlots (⟨.ifFire i, .muxWait sel⟩ :: rest) s = runSlots rest (s.wait (waitMs s.params sel)) :=
  runSlots_fired rest hf rfl

/-- Slot S5a after the toggle and the arm (43_step.md R133). -/
theorem runSlots_primary (s : State) :
    runSlots (⟨.ifFire .p, .muxEmit .tdl⟩ :: ⟨.ifFire .p, .muxEmit .tdb⟩ :: ⟨.ifFire .p, .muxWait .settle⟩ :: rest) s =
      runSlots rest (State.perform (actsPrimary s.params s.wires) s) := by
  unfold actsPrimary
  cases hf : s.wires.fire .p with
  | false =>
    simp only [runSlots_skipped, hf]
    rfl
  | true =>
    simp only [runSlots_fired_muxEmit, runSlots_fired_muxWait, State.emit_wires, hf]
    rfl

/-- The actions of an auxiliary slot: those of S5b and S5c differ in their circuit and their source. -/
def actsAux (p : Params) (w : Wires) (i : DbcInst) (src : Source) : List Action :=
  if w.fire i then [.emit (sourceWord p w.dir1 src), .wait (waitMs p .settle)] else []

/-- Slots S5b and S5c after their clear, on a state that has performed the actions before them (43_step.md R134, R135). -/
theorem runSlots_aux (l : List Action) (s : State) (i : DbcInst) (src : Source) :
    runSlots (⟨.ifFire i, .muxEmit src⟩ :: ⟨.ifFire i, .muxWait .settle⟩ :: rest) (State.perform l s) =
      runSlots rest (State.perform (l ++ actsAux s.params s.wires i src) s) := by
  rw [perform_append, actsAux]
  cases hf : s.wires.fire i with
  | false =>
    simp only [runSlots_skipped, perform_wires, hf]
    rfl
  | true =>
    simp only [runSlots_fired_muxEmit, runSlots_fired_muxWait, State.emit_wires, State.emit_params, perform_wires,
      perform_params, hf]
    rfl

/-- Slots S6 and S7, when SEQ_TICK has left the wire that SEQ_NEUTRAL drives again (41_sequencer.md R94, R95). -/
theorem runSlots_neutral (hn : s.wires.neutral = isNeutral s.wires.cd2) :
    runSlots [⟨.always, .seqNeutral⟩, ⟨.always, .muxWait .period⟩] s =
      .next (State.perform (actsNeutral s.params s.wires) s) := by
  have hwire : s.drive { s.wires with neutral := isNeutral s.wires.cd2 } = s := by
    rw [← hn]
    rfl
  rw [runSlots_always _ (exec_seqNeutral s), hwire, ← hn, actsNeutral]
  cases s.wires.neutral <;> rfl

end

/-! ### The registers and wires -/

/-- The state after slots S3 and S4: the samples, EXT and the updates are those of the step. -/
def updatedState (siw : Siw) (s : State) : State :=
  { s with
    acts := []
    wires := { s.wires.driveSamples siw with
      uP := (stepWires siw s).uP, uA := (stepWires siw s).uA, uB := (stepWires siw s).uB } }

/-- The state after the comparators: the debounce bank's wires are those of the step, and nothing is written yet. -/
def comparedState (siw : Siw) (s : State) : State :=
  (updatedState siw s).drive { (updatedState siw s).wires with
    hitP := (stepWires siw s).hitP, hitA := (stepWires siw s).hitA, hitB := (stepWires siw s).hitB }

/-- The state after SEQ_ARM: the wires are those of the step but for the tick's two, and `CNT_P` and DIR are written. -/
def armedState (siw : Siw) (s : State) : State :=
  { s with
    cntP := (stepState siw s).cntP
    dir := (stepState siw s).dir
    acts := []
    wires := { stepWires siw s with cd2 := s.wires.cd2, neutral := s.wires.neutral } }

section
variable (siw : Siw) (s : State)

theorem dbcUpdate_beginStep :
    dbcUpdate .b (dbcUpdate .a (dbcUpdate .p (beginStep siw s))) = updatedState siw s := rfl

theorem dbcCmp_updatedState :
    dbcCmp .b (dbcCmp .a (dbcCmp .p (updatedState siw s))) = comparedState siw s := rfl

theorem runSlots_through_compares :
    runSlots slotProgram (beginStep siw s) = runSlots (slotProgram.drop 6) (comparedState siw s) := by
  rw [← dbcCmp_updatedState, ← dbcUpdate_beginStep, slotProgram]
  iterate 6 rw [runSlots_always _ rfl]
  rfl

theorem runSlots_through_arm :
    runSlots (slotProgram.drop 6) (comparedState siw s) = runSlots (slotProgram.drop 10) (armedState siw s) := by
  rfl

/-- A step is the register part of its slots, and its action list performed on that. -/
theorem stepState_eq_perform :
    stepState siw s = State.perform (stepActs s.params (stepWires siw s))
      (seqTicked (dbcClear .b (dbcClear .a (armedState siw s)))) := by
  rw [perform_eq]
  rfl

end

/-- Settles O44: up to SEQ_ARM the operations drive wires and write `CNT_P` and DIR; from there on each performs its part of
the action list, or commutes with the parts performed before it. -/
theorem stepIsItsSlotsInOrder : Obligations.StepIsItsSlotsInOrder := by
  intro siw s
  rw [exec_step, stepState_eq_perform, runSlots_through_compares, runSlots_through_arm]
  simp only [slotProgram, List.drop_succ_cons, List.drop_zero]
  rw [runSlots_primary, runSlots_always _ (exec_dbcClearA _), dbcClear_perform, runSlots_aux,
    runSlots_always _ (exec_dbcClearB _), dbcClear_perform, runSlots_aux,
    runSlots_always _ (exec_seqTick_eq_seqTicked _), seqTicked_perform,
    runSlots_neutral (by rw [perform_wires]; rfl), perform_params, perform_wires, ← perform_append]
  rfl

end Sys2Proof.Machine
end

section
/-! The environment loop (60_exceptions.md R152 to R159, R166; 70_reset_and_hazards.md R172, R180): the gate, an iteration, the
watchdog, and the stop. -/

namespace Sys2Proof.Machine

/-! ### The gate (60_exceptions.md R153, R154) -/

theorem gateSet_iterate_succ (l : Loop) (n : Nat) : Loop.gateSet^[n + 1] l = { l with gate := true } := by
  induction n with
  | zero => rfl
  | succ n ih =>
    rw [Function.iterate_succ_apply', ih]
    rfl

/-- Settles O52: after the first `set()` the flag is 1 and the others are no-ops; the take clears it. -/
theorem gateGivesOneTrigger : Obligations.GateGivesOneTrigger := by
  intro l n
  rw [gateSet_iterate_succ]
  exact ⟨rfl, rfl, rfl⟩

/-! ### The SIW of an iteration (60_exceptions.md R154, R166) -/

theorem sample_siwOf (p a b x : Bool) (i : DbcInst) :
    sample (siwOf p a b x) i = !(match i with | .p => p | .a => a | .b => b) := by
  cases i <;> revert p a b x <;> decide

theorem extBit_siwOf (p a b x : Bool) : extBit (siwOf p a b x) = x := by
  revert p a b x
  decide

theorem extBit_loop_siw (level : Nat → Bool) (l : Loop) : extBit (l.siw level) = l.gate := extBit_siwOf ..

/-! ### One iteration -/

/-- The loop after an iteration that completes: the block after its STEP, the gate taken, the watchdog kicked, and the actions
performed. -/
def Loop.stepped (level : Nat → Bool) (l : Loop) : Loop where
  block := stepState (l.siw level) l.block
  gate := false
  run := l.run
  calls := l.calls ++ .resetWatchdog :: callsOf (stepState (l.siw level) l.block).acts

/-- A running iteration in an admitted configuration runs its STEP, and faults exactly when the waits of that step starve the
watchdog. -/
theorem iterate_running {l : Loop} (hrun : l.run = .running) (hl : l.block.params.legal = true) (level : Nat → Bool)
    (extra : Nat) :
    l.iterate level extra =
      if starves l.block.params (stepState (l.siw level) l.block).acts extra then .fault .watchdogStarved
      else .next (l.stepped level) := by
  unfold Loop.iterate
  rw [hrun]
  dsimp only
  rw [step_presentFirst_encode _ hl, exec_step]
  rfl

/-- The longest waits of a step are those of three fires (43_step.md R138). -/
theorem sum_waits_stepActs_le (p : Params) (w : Wires) : (waits (stepActs p w)).sum ≤ 3 * p.settleMs + p.periodMs := by
  have hp := bit_le_one (w.fire .p)
  have ha := bit_le_one (w.fire .a)
  have hb := bit_le_one (w.fire .b)
  have hfires : bit (w.fire .p) + bit (w.fire .a) + bit (w.fire .b) ≤ 3 := by omega
  rw [sum_waits_stepActs, Nat.mul_comm 3]
  exact Nat.add_le_add_right (Nat.mul_le_mul_left _ hfires) _

theorem sum_waits_stepActs_of_all_fire {p : Params} {w : Wires} (h : ∀ i, w.fire i = true) :
    (waits (stepActs p w)).sum = 3 * p.settleMs + p.periodMs := by
  rw [sum_waits_stepActs, h, h, h, Nat.mul_comm 3]
  rfl

/-- EXT alone makes `fire_P` (43_step.md R132). -/
theorem stepWires_fire_p_of_ext {siw : Siw} {s : State} (h : extBit siw = true) : (stepWires siw s).fire .p = true :=
  (stepWires_fire_p_iff siw s).mpr (.inr h)

/-- Settles O53: the margin leaves no starving step; the SIW is sampled from the lines and the gate, and EXT toggles. -/
theorem iterationTakesTheGateAndCompletes : Obligations.IterationTakesTheGateAndCompletes := by
  intro level extra l hrun hl hmargin
  have hfed : starves l.block.params (stepState (l.siw level) l.block).acts extra = false :=
    starves_false_of_margin hmargin (sum_waits_stepActs_le _ _)
  have hnext : l.iterate level extra = .next (l.stepped level) := by
    rw [iterate_running hrun hl, hfed]
    rfl
  refine ⟨_, hnext, hrun, rfl, extBit_loop_siw level l, sample_siwOf _ _ _ _ .p, sample_siwOf _ _ _ _ .a,
    sample_siwOf _ _ _ _ .b, fun hgate => ?_, rfl⟩
  exact stepState_dir_of_fire (stepWires_fire_p_of_ext ((extBit_loop_siw level l).trans hgate))

/-- Settles O54: with three fires the waits of the step are the longest, and without the margin they reach the timeout. -/
theorem shortTimeoutStarvesTheWatchdog : Obligations.ShortTimeoutStarvesTheWatchdog := by
  intro level extra l hrun hl hfire hmargin
  have hshort : l.block.params.watchdogTimeout ≤ 3 * l.block.params.settleMs + l.block.params.periodMs + extra := by
    rw [← not_lt, ← watchdogMargin_iff, hmargin]
    decide
  have hstarves : starves l.block.params (stepState (l.siw level) l.block).acts extra = true := by
    rw [starves_iff, stepState_acts, sum_waits_stepActs_of_all_fire hfire]
    exact hshort
  rw [iterate_running hrun hl, if_pos hstarves]

/-! ### Stop and start (60_exceptions.md R159; 70_reset_and_hazards.md R172) -/

theorem requestStop_running {l : Loop} (h : l.run = .running) : l.requestStop = { l with run := .stopRequested } := by
  simp only [Loop.requestStop, h]

theorem start_stopped {l : Loop} (hl : l.block.params.legal = true) :
    ({ l with run := .stopped } : Loop).start =
      .next { l with block := l.block.applyReset, gate := false, run := .running } := by
  simp only [Loop.start, step_presentFirst_encode _ hl, exec_reset]

/-- Settles O55: the iteration after a request only takes the request; a stopped loop goes on by a start alone, which runs the
RESET it presents. -/
theorem stopEndsAtTheIterationBoundary : Obligations.StopEndsAtTheIterationBoundary := by
  intro level extra l hrun
  rw [requestStop_running hrun]
  exact ⟨rfl, rfl, fun hl => ⟨_, start_stopped hl, rfl, rfl, exec_reset l.block⟩⟩

end Sys2Proof.Machine
end

section
/-! Traces (30_encoding.md R62 to R64; 43_step.md R140; 60_exceptions.md R151(b), (e)): what a line means, which traces run, and
what a run shows. -/

namespace Sys2Proof.Machine

/-! ### Lines (30_encoding.md R62, R63) -/

/-- Settles O56: the sixteen sets are read letter by letter, and a line's operations are those of its definition. -/
theorem traceLinesMeanTheirSteps : Obligations.TraceLinesMeanTheirSteps :=
  ⟨by decide, rfl, fun _ => rfl, fun _ _ => rfl, rfl, fun _ => rfl, rfl, rfl, fun _ => rfl⟩

/-! ### Runs -/

/-- RESET and STEP complete, whatever the state. -/
theorem exec_environment_completes {i : Instr} (h : i = .reset ∨ ∃ siw, i = .step siw) (s : State) :
    ∃ t, exec i s = .next t := by
  rcases h with rfl | ⟨siw, rfl⟩
  · exact ⟨_, exec_reset s⟩
  · exact ⟨_, exec_step siw s⟩

/-- No operation writes a parameter, so the configuration stays admitted over the whole run. -/
theorem runOps_completes {ops : List Instr} {s : State} (hl : s.params.legal = true)
    (hops : ∀ i ∈ ops, i = .reset ∨ ∃ siw, i = .step siw) :
    ∃ r, runOps ops s = .next r ∧ r.observed.length = ops.length := by
  induction ops generalizing s with
  | nil => exact ⟨_, runOps_nil s, rfl⟩
  | cons i ops ih =>
    obtain ⟨hi, hrest⟩ := List.forall_mem_cons.mp hops
    obtain ⟨t, ht⟩ := exec_environment_completes hi s
    obtain ⟨r, hr, hlen⟩ := ih (exec_params ht ▸ hl) hrest
    exact ⟨_, runOps_cons ((step_presentFirst_encode i hl).trans ht) hr, by rw [List.length_cons, List.length_cons, hlen]⟩

theorem runTrace_from_reset {p : Params} {lines : List TraceLine}
    (h : (TraceLine.reset :: lines).all TraceLine.wellFormed = true) :
    runTrace p none (.reset :: lines) = runOps (expandTrace (.reset :: lines)) { State.reset with params := p } := by
  rw [runTrace, if_pos h]

theorem runTrace_from_state {p : Params} {s : State} {lines : List TraceLine}
    (h : lines.all TraceLine.wellFormed = true) :
    runTrace p (some s) lines =
      if s.inRange then runOps (expandTrace lines) s else .refused .startStateUnreachable := by
  rw [runTrace, if_pos h]

theorem runTrace_without_reset {p : Params} {lines : List TraceLine}
    (h : lines.all TraceLine.wellFormed = true) (hhead : lines.head? ≠ some .reset) :
    runTrace p none lines = .refused .traceWithoutReset := by
  unfold runTrace
  rw [if_pos h]
  cases lines with
  | nil => rfl
  | cons l lines =>
    cases l with
    | reset => exact absurd rfl hhead
    | step | idle | hold | flap => rfl

/-- Settles O57: the runner checks the first line or the start state, and the operations of a trace all complete. -/
theorem traceNeedsResetOrStartState : Obligations.TraceNeedsResetOrStartState := by
  refine ⟨fun _ _ => runTrace_without_reset, fun p lines hl hwf => ?_, fun p s lines hl hwf hr => ?_,
    fun p s lines hwf hr => ?_⟩
  · rw [runTrace_from_reset hwf]
    exact runOps_completes hl (expandTrace_environment _)
  · rw [runTrace_from_state hwf, if_pos hr]
    exact runOps_completes hl (expandTrace_environment _)
  · rw [runTrace_from_state hwf, hr]
    rfl

/-! ### What a run shows (43_step.md R140) -/

/-- The observations of STEPs with the SIWs of a list, in order. -/
def stepObservations : List Siw → State → List Observation
  | [], _ => []
  | siw :: siws, s => (stepState siw s).observe :: stepObservations siws (stepState siw s)

@[simp] theorem length_stepObservations (siws : List Siw) (s : State) :
    (stepObservations siws s).length = siws.length := by
  induction siws generalizing s with
  | nil => rfl
  | cons siw siws ih => rw [stepObservations, List.length_cons, ih, List.length_cons]

/-- The `k`-th observation is that of the state the first `k + 1` steps lead to. -/
theorem getElem?_stepObservations {siws : List Siw} {k : Nat} (h : k < siws.length) (s : State) :
    (stepObservations siws s)[k]? = some (stepStates (siws.take (k + 1)) s).observe := by
  induction siws generalizing s k with
  | nil => exact absurd h (Nat.not_lt_zero k)
  | cons siw siws ih =>
    cases k with
    | zero => rfl
    | succ k => exact ih (Nat.lt_of_succ_lt_succ h) (stepState siw s)

theorem runOps_steps {siws : List Siw} {s : State} (hl : s.params.legal = true) :
    runOps (siws.map .step) s = .next ⟨stepObservations siws s, stepStates siws s⟩ := by
  induction siws generalizing s with
  | nil => rfl
  | cons siw siws ih =>
    exact runOps_cons ((step_presentFirst_encode (.step siw) hl).trans (exec_step siw s)) (ih (s := stepState siw s) hl)

/-- Settles O58: the runner adds one observation per step, of the state that step leaves. -/
theorem runShowsEveryStep : Obligations.RunShowsEveryStep := fun s siws hl =>
  ⟨_, runOps_steps hl, length_stepObservations siws s, fun k hk =>
    ⟨_, execAll_steps (siws.take (k + 1)) s, getElem?_stepObservations hk s⟩⟩

end Sys2Proof.Machine
end
